-- ==== Sys2Proof/Word.lean ====
section
/-! DEFINITION. The word types of the VFP11 and of the ARM core it is attached to (00_scope.md R12).
No arithmetic of the model stands here. -/

namespace Sys2Proof

/-- A 32-bit word: an instruction, an ARM register, a single-precision register, a system register. -/
abbrev Word := BitVec 32

/-- A byte of memory. -/
abbrev Byte := BitVec 8

end Sys2Proof
end

