-- ==== Sys2Proof/Syntax.lean ====
section
/-! DEFINITION. The instructions: one constructor of `Instr` for each of the 83 rows of the opcode table
(30_encoding.md R121, R147). Encodings that are architecturally Undefined are not terms of `Instr`
(30_encoding.md R140); the Unpredictable ones are, and `Sys2Proof/WellFormed.lean` names them.
At the end the operations of the CDP instructions, which Config's `supportNan` can tell apart (40_cdp_common.md R160). -/

namespace Sys2Proof

/-- A single-precision register number, `Fx : x` (30_encoding.md R124). -/
abbrev SReg := BitVec 5

/-- A double-precision register number (30_encoding.md R124). -/
abbrev DReg := BitVec 4

/-- An ARM register number, R0 to R15 (30_encoding.md R124). -/
abbrev ArmReg := BitVec 4

/-- The 15 conditions a VFP instruction can carry (30_encoding.md R122); 1111 is not one of them. -/
inductive Cond where
  | eq | ne | cs | cc | mi | pl | vs | vc | hi | ls | ge | lt | gt | le | al
deriving DecidableEq, Repr

/-- The seven system registers (10_state.md R51). -/
inductive SysReg where
  | fpsid | fpscr | mvfr1 | mvfr0 | fpexc | fpinst | fpinst2
deriving DecidableEq, Repr

/-- A VFP11 instruction. -/
inductive Instr where
  /-- FMACS Sd, Sn, Sm: Fd + Fn * Fm (R131, R234). -/
  | fmacs (c : Cond) (d n m : SReg)
  /-- FMACD Dd, Dn, Dm: Fd + Fn * Fm (R131, R235). -/
  | fmacd (c : Cond) (d n m : DReg)
  /-- FNMACS Sd, Sn, Sm: Fd - Fn * Fm (R131, R236). -/
  | fnmacs (c : Cond) (d n m : SReg)
  /-- FNMACD Dd, Dn, Dm: Fd - Fn * Fm (R131, R237). -/
  | fnmacd (c : Cond) (d n m : DReg)
  /-- FMSCS Sd, Sn, Sm: -Fd + Fn * Fm (R131, R238). -/
  | fmscs (c : Cond) (d n m : SReg)
  /-- FMSCD Dd, Dn, Dm: -Fd + Fn * Fm (R131, R239). -/
  | fmscd (c : Cond) (d n m : DReg)
  /-- FNMSCS Sd, Sn, Sm: -Fd - Fn * Fm (R131, R240). -/
  | fnmscs (c : Cond) (d n m : SReg)
  /-- FNMSCD Dd, Dn, Dm: -Fd - Fn * Fm (R131, R241). -/
  | fnmscd (c : Cond) (d n m : DReg)
  /-- FMULS Sd, Sn, Sm: Fn * Fm (R131, R230). -/
  | fmuls (c : Cond) (d n m : SReg)
  /-- FMULD Dd, Dn, Dm: Fn * Fm (R131, R231). -/
  | fmuld (c : Cond) (d n m : DReg)
  /-- FNMULS Sd, Sn, Sm: -(Fn * Fm) (R131, R232). -/
  | fnmuls (c : Cond) (d n m : SReg)
  /-- FNMULD Dd, Dn, Dm: -(Fn * Fm) (R131, R233). -/
  | fnmuld (c : Cond) (d n m : DReg)
  /-- FADDS Sd, Sn, Sm: Fn + Fm (R131, R225). -/
  | fadds (c : Cond) (d n m : SReg)
  /-- FADDD Dd, Dn, Dm: Fn + Fm (R131, R227). -/
  | faddd (c : Cond) (d n m : DReg)
  /-- FSUBS Sd, Sn, Sm: Fn - Fm (R131, R228). -/
  | fsubs (c : Cond) (d n m : SReg)
  /-- FSUBD Dd, Dn, Dm: Fn - Fm (R131, R229). -/
  | fsubd (c : Cond) (d n m : DReg)
  /-- FDIVS Sd, Sn, Sm: Fn / Fm (R131, R303). -/
  | fdivs (c : Cond) (d n m : SReg)
  /-- FDIVD Dd, Dn, Dm: Fn / Fm (R131, R304). -/
  | fdivd (c : Cond) (d n m : DReg)
  /-- FCPYS Sd, Sm: copy (R132, R251). -/
  | fcpys (c : Cond) (d m : SReg)
  /-- FCPYD Dd, Dm: copy (R132, R252). -/
  | fcpyd (c : Cond) (d m : DReg)
  /-- FABSS Sd, Sm: absolute value (R132, R253). -/
  | fabss (c : Cond) (d m : SReg)
  /-- FABSD Dd, Dm: absolute value (R132, R254). -/
  | fabsd (c : Cond) (d m : DReg)
  /-- FNEGS Sd, Sm: negation (R132, R255). -/
  | fnegs (c : Cond) (d m : SReg)
  /-- FNEGD Dd, Dm: negation (R132, R256). -/
  | fnegd (c : Cond) (d m : DReg)
  /-- FSQRTS Sd, Sm: square root (R132, R305). -/
  | fsqrts (c : Cond) (d m : SReg)
  /-- FSQRTD Dd, Dm: square root (R132, R306). -/
  | fsqrtd (c : Cond) (d m : DReg)
  /-- FCMPS Sd, Sm: compare (R132, R259). -/
  | fcmps (c : Cond) (d m : SReg)
  /-- FCMPD Dd, Dm: compare (R132, R260). -/
  | fcmpd (c : Cond) (d m : DReg)
  /-- FCMPES Sd, Sm: compare, NaN exceptions (R132, R261). -/
  | fcmpes (c : Cond) (d m : SReg)
  /-- FCMPED Dd, Dm: compare, NaN exceptions (R132, R262). -/
  | fcmped (c : Cond) (d m : DReg)
  /-- FCMPZS Sd: compare with zero; `sbz` is Fm:M, Should Be Zero (R132, R263). -/
  | fcmpzs (c : Cond) (d : SReg) (sbz : BitVec 5)
  /-- FCMPZD Dd: compare with zero; `sbz` is Fm:M, Should Be Zero (R132, R264). -/
  | fcmpzd (c : Cond) (d : DReg) (sbz : BitVec 5)
  /-- FCMPEZS Sd: compare with zero, NaN exceptions; `sbz` is Fm:M, Should Be Zero (R132, R265). -/
  | fcmpezs (c : Cond) (d : SReg) (sbz : BitVec 5)
  /-- FCMPEZD Dd: compare with zero, NaN exceptions; `sbz` is Fm:M, Should Be Zero (R132, R266). -/
  | fcmpezd (c : Cond) (d : DReg) (sbz : BitVec 5)
  /-- FCVTDS Dd, Sm: single to double precision (R132, R276). -/
  | fcvtds (c : Cond) (d : DReg) (m : SReg)
  /-- FCVTSD Sd, Dm: double to single precision (R132, R275). -/
  | fcvtsd (c : Cond) (d : SReg) (m : DReg)
  /-- FUITOS Sd, Sm: unsigned integer to float (R132, R271). -/
  | fuitos (c : Cond) (d : SReg) (m : SReg)
  /-- FUITOD Dd, Sm: unsigned integer to float (R132, R272). -/
  | fuitod (c : Cond) (d : DReg) (m : SReg)
  /-- FSITOS Sd, Sm: signed integer to float (R132, R273). -/
  | fsitos (c : Cond) (d : SReg) (m : SReg)
  /-- FSITOD Dd, Sm: signed integer to float (R132, R274). -/
  | fsitod (c : Cond) (d : DReg) (m : SReg)
  /-- FTOUIS Sd, Sm: float to unsigned integer (R132, R284). -/
  | ftouis (c : Cond) (d : SReg) (m : SReg)
  /-- FTOUID Sd, Dm: float to unsigned integer (R132, R285). -/
  | ftouid (c : Cond) (d : SReg) (m : DReg)
  /-- FTOUIZS Sd, Sm: float to unsigned integer, towards zero (R132, R286). -/
  | ftouizs (c : Cond) (d : SReg) (m : SReg)
  /-- FTOUIZD Sd, Dm: float to unsigned integer, towards zero (R132, R287). -/
  | ftouizd (c : Cond) (d : SReg) (m : DReg)
  /-- FTOSIS Sd, Sm: float to signed integer (R132, R288). -/
  | ftosis (c : Cond) (d : SReg) (m : SReg)
  /-- FTOSID Sd, Dm: float to signed integer (R132, R289). -/
  | ftosid (c : Cond) (d : SReg) (m : DReg)
  /-- FTOSIZS Sd, Sm: float to signed integer, towards zero (R132, R290). -/
  | ftosizs (c : Cond) (d : SReg) (m : SReg)
  /-- FTOSIZD Sd, Dm: float to signed integer, towards zero (R132, R291). -/
  | ftosizd (c : Cond) (d : SReg) (m : DReg)
  /-- FLDS: at Rn plus (`u`) or minus `offset8` words (R133, R314). -/
  | flds (c : Cond) (u : Bool) (rn : ArmReg) (d : SReg) (offset8 : BitVec 8)
  /-- FLDD: at Rn plus (`u`) or minus `offset8` words (R133, R315). -/
  | fldd (c : Cond) (u : Bool) (rn : ArmReg) (d : DReg) (offset8 : BitVec 8)
  /-- FSTS: at Rn plus (`u`) or minus `offset8` words (R133, R316). -/
  | fsts (c : Cond) (u : Bool) (rn : ArmReg) (d : SReg) (offset8 : BitVec 8)
  /-- FSTD: at Rn plus (`u`) or minus `offset8` words (R133, R317). -/
  | fstd (c : Cond) (u : Bool) (rn : ArmReg) (d : DReg) (offset8 : BitVec 8)
  /-- FLDMS, Increment After: `n` S registers, offset8 = n (R134, R323). -/
  | fldmsIa (c : Cond) (rn : ArmReg) (d : SReg) (n : BitVec 8)
  /-- FLDMS, Increment After, writeback: `n` S registers, offset8 = n (R134, R323). -/
  | fldmsIaWb (c : Cond) (rn : ArmReg) (d : SReg) (n : BitVec 8)
  /-- FLDMS, Decrement Before, writeback: `n` S registers, offset8 = n (R134, R323). -/
  | fldmsDbWb (c : Cond) (rn : ArmReg) (d : SReg) (n : BitVec 8)
  /-- FLDMD, Increment After: `n` D registers, offset8 = 2n (R134, R324). -/
  | fldmdIa (c : Cond) (rn : ArmReg) (d : DReg) (n : BitVec 7)
  /-- FLDMD, Increment After, writeback: `n` D registers, offset8 = 2n (R134, R324). -/
  | fldmdIaWb (c : Cond) (rn : ArmReg) (d : DReg) (n : BitVec 7)
  /-- FLDMD, Decrement Before, writeback: `n` D registers, offset8 = 2n (R134, R324). -/
  | fldmdDbWb (c : Cond) (rn : ArmReg) (d : DReg) (n : BitVec 7)
  /-- FLDMX, Increment After: `n` D registers, offset8 = 2n + 1 (R134, R325). -/
  | fldmxIa (c : Cond) (rn : ArmReg) (d : DReg) (n : BitVec 7)
  /-- FLDMX, Increment After, writeback: `n` D registers, offset8 = 2n + 1 (R134, R325). -/
  | fldmxIaWb (c : Cond) (rn : ArmReg) (d : DReg) (n : BitVec 7)
  /-- FLDMX, Decrement Before, writeback: `n` D registers, offset8 = 2n + 1 (R134, R325). -/
  | fldmxDbWb (c : Cond) (rn : ArmReg) (d : DReg) (n : BitVec 7)
  /-- FSTMS, Increment After: `n` S registers, offset8 = n (R134, R327). -/
  | fstmsIa (c : Cond) (rn : ArmReg) (d : SReg) (n : BitVec 8)
  /-- FSTMS, Increment After, writeback: `n` S registers, offset8 = n (R134, R327). -/
  | fstmsIaWb (c : Cond) (rn : ArmReg) (d : SReg) (n : BitVec 8)
  /-- FSTMS, Decrement Before, writeback: `n` S registers, offset8 = n (R134, R327). -/
  | fstmsDbWb (c : Cond) (rn : ArmReg) (d : SReg) (n : BitVec 8)
  /-- FSTMD, Increment After: `n` D registers, offset8 = 2n (R134, R328). -/
  | fstmdIa (c : Cond) (rn : ArmReg) (d : DReg) (n : BitVec 7)
  /-- FSTMD, Increment After, writeback: `n` D registers, offset8 = 2n (R134, R328). -/
  | fstmdIaWb (c : Cond) (rn : ArmReg) (d : DReg) (n : BitVec 7)
  /-- FSTMD, Decrement Before, writeback: `n` D registers, offset8 = 2n (R134, R328). -/
  | fstmdDbWb (c : Cond) (rn : ArmReg) (d : DReg) (n : BitVec 7)
  /-- FSTMX, Increment After: `n` D registers, offset8 = 2n + 1 (R134, R329). -/
  | fstmxIa (c : Cond) (rn : ArmReg) (d : DReg) (n : BitVec 7)
  /-- FSTMX, Increment After, writeback: `n` D registers, offset8 = 2n + 1 (R134, R329). -/
  | fstmxIaWb (c : Cond) (rn : ArmReg) (d : DReg) (n : BitVec 7)
  /-- FSTMX, Decrement Before, writeback: `n` D registers, offset8 = 2n + 1 (R134, R329). -/
  | fstmxDbWb (c : Cond) (rn : ArmReg) (d : DReg) (n : BitVec 7)
  /-- FMSR Sn, Rd; `sbz` is [6:5]:[3:0], Should Be Zero (R136, R343). -/
  | fmsr (c : Cond) (n : SReg) (rd : ArmReg) (sbz : BitVec 6)
  /-- FMRS Rd, Sn (R136, R344). -/
  | fmrs (c : Cond) (rd : ArmReg) (n : SReg) (sbz : BitVec 6)
  /-- FMDLR Dn, Rd: lower half (R136, R345). -/
  | fmdlr (c : Cond) (n : DReg) (rd : ArmReg) (sbz : BitVec 6)
  /-- FMRDL Rd, Dn: lower half (R136, R347). -/
  | fmrdl (c : Cond) (rd : ArmReg) (n : DReg) (sbz : BitVec 6)
  /-- FMDHR Dn, Rd: upper half (R136, R346). -/
  | fmdhr (c : Cond) (n : DReg) (rd : ArmReg) (sbz : BitVec 6)
  /-- FMRDH Rd, Dn: upper half (R136, R348). -/
  | fmrdh (c : Cond) (rd : ArmReg) (n : DReg) (sbz : BitVec 6)
  /-- FMXR reg, Rd; `sbz` is N:[6:5]:[3:0], Should Be Zero (R136, R357). -/
  | fmxr (c : Cond) (reg : SysReg) (rd : ArmReg) (sbz : BitVec 7)
  /-- FMRX Rd, reg; with Rd = R15 and FPSCR the word is FMSTAT's (R136, R358). -/
  | fmrx (c : Cond) (rd : ArmReg) (reg : SysReg) (sbz : BitVec 7)
  /-- FMSTAT (R136, R359). -/
  | fmstat (c : Cond) (sbz : BitVec 7)
  /-- FMDRR Dm, Rd, Rn (R138, R353). -/
  | fmdrr (c : Cond) (m : DReg) (rd rn : ArmReg)
  /-- FMRRD Rd, Rn, Dm (R138, R354). -/
  | fmrrd (c : Cond) (rd rn : ArmReg) (m : DReg)
  /-- FMSRR Sm and S(m+1), Rd, Rn (R138, R355). -/
  | fmsrr (c : Cond) (m : SReg) (rd rn : ArmReg)
  /-- FMRRS Rd, Rn, Sm and S(m+1) (R138, R356). -/
  | fmrrs (c : Cond) (rd rn : ArmReg) (m : SReg)
deriving DecidableEq, Repr

end Sys2Proof

namespace Sys2Proof.Machine

/-- FCPY, FABS, FNEG (42_fmac_copy_compare_convert.md R251 to R256). -/
inductive CopyKind where
  | copy | abs | neg
deriving DecidableEq, Repr

/-- The operations of the CDP instructions (40_cdp_common.md R160). -/
inductive CdpOp where
  | add (sub : Bool)
  | mul (neg : Bool)
  | mac (negP negA : Bool)
  | div
  | sqrt
  | copy (k : CopyKind)
  | cmp (e : Bool)
  | cmpz (e : Bool)
  | cvt
  | fromInt (signed : Bool)
  | toInt (signed towardsZero : Bool)
deriving DecidableEq, Repr

end Sys2Proof.Machine
end

