-- ==== Sys2Proof/WellFormed.lean ====
section
/-! DEFINITION. The statically Unpredictable forms of an instruction, by name, and the well-formed instructions,
which are those with none (30_encoding.md R141; 93_implementation_defined.md U4 to U11). The Unpredictable cases
that depend on FPSCR (LEN, STRIDE, overlap) are in `Sys2Proof/Machine/Cdp.lean`. -/

namespace Sys2Proof

/-- Why a form of an instruction is Unpredictable whatever the state holds. -/
inductive Unpredictable where
  /-- A Should-Be-Zero field of the encoding is not zero (30_encoding.md R132, R136). -/
  | sbzField
  /-- A register list with no register, with more than the file holds, or past its end (44_ls_memory.md R320). -/
  | registerList
  /-- Writeback to R15 (44_ls_memory.md R312). -/
  | writebackR15
  /-- FMSRR or FMRRS of S31 and a register that does not exist (45_ls_register_transfer.md R355, R356). -/
  | s31Pair
  /-- R15 as the ARM register of a transfer (45_ls_register_transfer.md R342, R353 to R356). -/
  | armR15
  /-- FMRRD or FMRRS into one ARM register twice (45_ls_register_transfer.md R354, R356). -/
  | sameArmReg
deriving DecidableEq, Repr

/-- The Should-Be-Zero fields are zero (30_encoding.md R142 (5)). -/
def sbzCheck {n : Nat} (sbz : BitVec n) : Option Unpredictable :=
  if sbz = 0 then none else some .sbzField

/-- The list `d .. d+n-1` of S registers has 1 to 32 of them and ends at S31 or before (44_ls_memory.md R320). -/
def listCheckS (d : SReg) (n : BitVec 8) : Option Unpredictable :=
  if 1 ≤ n.toNat ∧ n.toNat ≤ 32 ∧ d.toNat + n.toNat ≤ 32 then none else some .registerList

/-- The list `d .. d+n-1` of D registers has 1 to 16 of them and ends at D15 or before (44_ls_memory.md R320). -/
def listCheckD (d : DReg) (n : BitVec 7) : Option Unpredictable :=
  if 1 ≤ n.toNat ∧ n.toNat ≤ 16 ∧ d.toNat + n.toNat ≤ 16 then none else some .registerList

/-- The base of a form with writeback is not R15 (44_ls_memory.md R312). -/
def writebackCheck (rn : ArmReg) : Option Unpredictable :=
  if rn = 15#4 then some .writebackR15 else none

/-- The pair `Sm, S(m+1)` exists (45_ls_register_transfer.md R355, R356). -/
def s31Check (m : SReg) : Option Unpredictable :=
  if m = 31#5 then some .s31Pair else none

/-- The ARM register of a transfer is not R15 (45_ls_register_transfer.md R342, R353). -/
def armCheck (rd : ArmReg) : Option Unpredictable :=
  if rd = 15#4 then some .armR15 else none

/-- The two ARM registers of a transfer from the coprocessor differ (45_ls_register_transfer.md R354, R356). -/
def distinctCheck (rd rn : ArmReg) : Option Unpredictable :=
  if rd = rn then some .sameArmReg else none

/-- The first reason why the form is Unpredictable, if there is one (30_encoding.md R141). -/
def Instr.unpredictable (i : Instr) : Option Unpredictable :=
  match i with
  | .fmacs .. => none
  | .fmacd .. => none
  | .fnmacs .. => none
  | .fnmacd .. => none
  | .fmscs .. => none
  | .fmscd .. => none
  | .fnmscs .. => none
  | .fnmscd .. => none
  | .fmuls .. => none
  | .fmuld .. => none
  | .fnmuls .. => none
  | .fnmuld .. => none
  | .fadds .. => none
  | .faddd .. => none
  | .fsubs .. => none
  | .fsubd .. => none
  | .fdivs .. => none
  | .fdivd .. => none
  | .fcpys .. => none
  | .fcpyd .. => none
  | .fabss .. => none
  | .fabsd .. => none
  | .fnegs .. => none
  | .fnegd .. => none
  | .fsqrts .. => none
  | .fsqrtd .. => none
  | .fcmps .. => none
  | .fcmpd .. => none
  | .fcmpes .. => none
  | .fcmped .. => none
  | .fcmpzs _ _ sbz => sbzCheck sbz
  | .fcmpzd _ _ sbz => sbzCheck sbz
  | .fcmpezs _ _ sbz => sbzCheck sbz
  | .fcmpezd _ _ sbz => sbzCheck sbz
  | .fcvtds .. => none
  | .fcvtsd .. => none
  | .fuitos .. => none
  | .fuitod .. => none
  | .fsitos .. => none
  | .fsitod .. => none
  | .ftouis .. => none
  | .ftouid .. => none
  | .ftouizs .. => none
  | .ftouizd .. => none
  | .ftosis .. => none
  | .ftosid .. => none
  | .ftosizs .. => none
  | .ftosizd .. => none
  | .flds .. => none
  | .fldd .. => none
  | .fsts .. => none
  | .fstd .. => none
  | .fldmsIa _ _ d n => listCheckS d n
  | .fldmsIaWb _ rn d n => (listCheckS d n).or (writebackCheck rn)
  | .fldmsDbWb _ rn d n => (listCheckS d n).or (writebackCheck rn)
  | .fldmdIa _ _ d n => listCheckD d n
  | .fldmdIaWb _ rn d n => (listCheckD d n).or (writebackCheck rn)
  | .fldmdDbWb _ rn d n => (listCheckD d n).or (writebackCheck rn)
  | .fldmxIa _ _ d n => listCheckD d n
  | .fldmxIaWb _ rn d n => (listCheckD d n).or (writebackCheck rn)
  | .fldmxDbWb _ rn d n => (listCheckD d n).or (writebackCheck rn)
  | .fstmsIa _ _ d n => listCheckS d n
  | .fstmsIaWb _ rn d n => (listCheckS d n).or (writebackCheck rn)
  | .fstmsDbWb _ rn d n => (listCheckS d n).or (writebackCheck rn)
  | .fstmdIa _ _ d n => listCheckD d n
  | .fstmdIaWb _ rn d n => (listCheckD d n).or (writebackCheck rn)
  | .fstmdDbWb _ rn d n => (listCheckD d n).or (writebackCheck rn)
  | .fstmxIa _ _ d n => listCheckD d n
  | .fstmxIaWb _ rn d n => (listCheckD d n).or (writebackCheck rn)
  | .fstmxDbWb _ rn d n => (listCheckD d n).or (writebackCheck rn)
  | .fmsr _ _ rd sbz => (sbzCheck sbz).or (armCheck rd)
  | .fmrs _ rd _ sbz => (sbzCheck sbz).or (armCheck rd)
  | .fmdlr _ _ rd sbz => (sbzCheck sbz).or (armCheck rd)
  | .fmrdl _ rd _ sbz => (sbzCheck sbz).or (armCheck rd)
  | .fmdhr _ _ rd sbz => (sbzCheck sbz).or (armCheck rd)
  | .fmrdh _ rd _ sbz => (sbzCheck sbz).or (armCheck rd)
  | .fmxr _ _ rd sbz => (sbzCheck sbz).or (armCheck rd)
  | .fmrx _ rd _ sbz => (sbzCheck sbz).or (armCheck rd)
  | .fmstat _ sbz => sbzCheck sbz
  | .fmdrr _ _ rd rn => (armCheck rd).or (armCheck rn)
  | .fmrrd _ rd rn _ => ((armCheck rd).or (armCheck rn)).or (distinctCheck rd rn)
  | .fmsrr _ m rd rn => ((s31Check m).or (armCheck rd)).or (armCheck rn)
  | .fmrrs _ rd rn m => (((s31Check m).or (armCheck rd)).or (armCheck rn)).or (distinctCheck rd rn)

/-- An instruction with no statically Unpredictable form. -/
abbrev Instr.WellFormed (i : Instr) : Prop := i.unpredictable = none

/-- The condition field of an instruction (30_encoding.md R122). -/
def Instr.cond (i : Instr) : Cond :=
  match i with
  | .fmacs c .. => c
  | .fmacd c .. => c
  | .fnmacs c .. => c
  | .fnmacd c .. => c
  | .fmscs c .. => c
  | .fmscd c .. => c
  | .fnmscs c .. => c
  | .fnmscd c .. => c
  | .fmuls c .. => c
  | .fmuld c .. => c
  | .fnmuls c .. => c
  | .fnmuld c .. => c
  | .fadds c .. => c
  | .faddd c .. => c
  | .fsubs c .. => c
  | .fsubd c .. => c
  | .fdivs c .. => c
  | .fdivd c .. => c
  | .fcpys c .. => c
  | .fcpyd c .. => c
  | .fabss c .. => c
  | .fabsd c .. => c
  | .fnegs c .. => c
  | .fnegd c .. => c
  | .fsqrts c .. => c
  | .fsqrtd c .. => c
  | .fcmps c .. => c
  | .fcmpd c .. => c
  | .fcmpes c .. => c
  | .fcmped c .. => c
  | .fcmpzs c .. => c
  | .fcmpzd c .. => c
  | .fcmpezs c .. => c
  | .fcmpezd c .. => c
  | .fcvtds c .. => c
  | .fcvtsd c .. => c
  | .fuitos c .. => c
  | .fuitod c .. => c
  | .fsitos c .. => c
  | .fsitod c .. => c
  | .ftouis c .. => c
  | .ftouid c .. => c
  | .ftouizs c .. => c
  | .ftouizd c .. => c
  | .ftosis c .. => c
  | .ftosid c .. => c
  | .ftosizs c .. => c
  | .ftosizd c .. => c
  | .flds c .. => c
  | .fldd c .. => c
  | .fsts c .. => c
  | .fstd c .. => c
  | .fldmsIa c .. => c
  | .fldmsIaWb c .. => c
  | .fldmsDbWb c .. => c
  | .fldmdIa c .. => c
  | .fldmdIaWb c .. => c
  | .fldmdDbWb c .. => c
  | .fldmxIa c .. => c
  | .fldmxIaWb c .. => c
  | .fldmxDbWb c .. => c
  | .fstmsIa c .. => c
  | .fstmsIaWb c .. => c
  | .fstmsDbWb c .. => c
  | .fstmdIa c .. => c
  | .fstmdIaWb c .. => c
  | .fstmdDbWb c .. => c
  | .fstmxIa c .. => c
  | .fstmxIaWb c .. => c
  | .fstmxDbWb c .. => c
  | .fmsr c .. => c
  | .fmrs c .. => c
  | .fmdlr c .. => c
  | .fmrdl c .. => c
  | .fmdhr c .. => c
  | .fmrdh c .. => c
  | .fmxr c .. => c
  | .fmrx c .. => c
  | .fmstat c .. => c
  | .fmdrr c .. => c
  | .fmrrd c .. => c
  | .fmsrr c .. => c
  | .fmrrs c .. => c

end Sys2Proof
end

