-- ==== Sys2Proof/Decode.lean ====
section
/-! DEFINITION. The decoder, total on any bytes, and after it the encoder, both from the encoding tables of
30_encoding.md (R120 to R142). Encodings other than the four MCRR/MRRC rows and the `reg` field are the spec's
general knowledge of VFPv2: PRESUMED, log entry 26. -/

namespace Sys2Proof

/-- Why a word addressed to coprocessor 10 or 11 is architecturally Undefined (30_encoding.md R140). -/
inductive Illegal where
  /-- The condition field is 1111 (R122). -/
  | unconditional
  /-- A reserved opcode bit combination (R126, R127, R138). -/
  | reservedOpcode
  /-- A double-precision operation with an odd register number (R129). -/
  | oddDouble
  /-- A load or store with an Undefined P, W and U bit combination (R130). -/
  | addressingMode
  /-- A register transfer with an unused opc and cp combination (R136). -/
  | reservedTransfer
  /-- FMXR or FMRX of a system register that is not defined (R137, 10_state.md R52). -/
  | undefinedRegister
deriving DecidableEq, Repr

/-- What the decoder reads from a word. -/
inductive Decoded where
  /-- One of the 71 instructions. -/
  | instr (i : Instr)
  /-- A VFP word that is architecturally Undefined, with its condition if it has one. -/
  | undefined (c : Option Cond) (why : Illegal)
  /-- A word that is not addressed to coprocessor 10 or 11: not a VFP11 instruction (R142). -/
  | notVfp
  /-- Fewer than four bytes: no word at all. -/
  | truncated
deriving DecidableEq, Repr

/-- The `n`-bit field of `w` that starts at bit `lo` (00_scope.md R12). -/
def field (w : Word) (lo n : Nat) : BitVec n := w.extractLsb' lo n

/-- Bit `i` of `w` (00_scope.md R12). -/
def bitAt (w : Word) (i : Nat) : Bool := w.getLsbD i

/-- The condition code of a condition (30_encoding.md R122). -/
def Cond.code (c : Cond) : BitVec 4 :=
  match c with
  | .eq => 0b0000#4
  | .ne => 0b0001#4
  | .cs => 0b0010#4
  | .cc => 0b0011#4
  | .mi => 0b0100#4
  | .pl => 0b0101#4
  | .vs => 0b0110#4
  | .vc => 0b0111#4
  | .hi => 0b1000#4
  | .ls => 0b1001#4
  | .ge => 0b1010#4
  | .lt => 0b1011#4
  | .gt => 0b1100#4
  | .le => 0b1101#4
  | .al => 0b1110#4

/-- The condition a code stands for; 1111 stands for none (30_encoding.md R122). -/
def condOf (b : BitVec 4) : Option Cond :=
  match b with
  | 0b0000#4 => some .eq
  | 0b0001#4 => some .ne
  | 0b0010#4 => some .cs
  | 0b0011#4 => some .cc
  | 0b0100#4 => some .mi
  | 0b0101#4 => some .pl
  | 0b0110#4 => some .vs
  | 0b0111#4 => some .vc
  | 0b1000#4 => some .hi
  | 0b1001#4 => some .ls
  | 0b1010#4 => some .ge
  | 0b1011#4 => some .lt
  | 0b1100#4 => some .gt
  | 0b1101#4 => some .le
  | 0b1110#4 => some .al
  | _ => none

/-- The `reg` field of a system register (30_encoding.md R137). -/
def SysReg.code (r : SysReg) : BitVec 4 :=
  match r with
  | .fpsid => 0b0000#4
  | .fpscr => 0b0001#4
  | .mvfr1 => 0b0110#4
  | .mvfr0 => 0b0111#4
  | .fpexc => 0b1000#4
  | .fpinst => 0b1001#4
  | .fpinst2 => 0b1010#4

/-- The system register a `reg` field names, if it names one (30_encoding.md R137). -/
def sysRegOf (b : BitVec 4) : Option SysReg :=
  match b with
  | 0b0000#4 => some .fpsid
  | 0b0001#4 => some .fpscr
  | 0b0110#4 => some .mvfr1
  | 0b0111#4 => some .mvfr0
  | 0b1000#4 => some .fpexc
  | 0b1001#4 => some .fpinst
  | 0b1010#4 => some .fpinst2
  | _ => none

/-- The upper four bits of a 5-bit register number: the Fx field (30_encoding.md R124). -/
def upper (r : BitVec 5) : BitVec 4 := r.extractLsb' 1 4

/-- The lowest bit of a 5-bit register number: the D, N or M bit (30_encoding.md R124). -/
def lowest (r : BitVec 5) : BitVec 1 := r.extractLsb' 0 1

/-- A D register number with its extra bit, which is 0 (30_encoding.md R124). -/
def evenReg (d : DReg) : BitVec 5 := d ++ 0#1

/-- The extra bit of a D register field is set: an odd register number (30_encoding.md R129). -/
def isOdd (r : BitVec 5) : Bool := r.getLsbD 0

/-- The register field `Fd : D` of a word (30_encoding.md R124). -/
def fieldD (w : Word) : BitVec 5 := field w 12 4 ++ field w 22 1

/-- The register field `Fn : N` of a word (30_encoding.md R124). -/
def fieldN (w : Word) : BitVec 5 := field w 16 4 ++ field w 7 1

/-- The register field `Fm : M` of a word (30_encoding.md R124). -/
def fieldM (w : Word) : BitVec 5 := field w 0 4 ++ field w 5 1

/-- An instruction whose listed register fields are D registers: Undefined if one of them is odd
(30_encoding.md R129). -/
def ifEven (c : Cond) (odd : Bool) (i : Instr) : Decoded :=
  if odd then .undefined (some c) .oddDouble else .instr i

/-- The extension opcodes, `Fn : N` (30_encoding.md R127); `dbl` is cp = 1011. -/
def decodeExt (c : Cond) (dbl : Bool) (ext d m : BitVec 5) : Decoded :=
  match ext with
  | 0b00000#5 => if dbl then ifEven c (isOdd d || isOdd m) (.fcpyd c (upper d) (upper m)) else .instr (.fcpys c d m)
  | 0b00001#5 => if dbl then ifEven c (isOdd d || isOdd m) (.fabsd c (upper d) (upper m)) else .instr (.fabss c d m)
  | 0b00010#5 => if dbl then ifEven c (isOdd d || isOdd m) (.fnegd c (upper d) (upper m)) else .instr (.fnegs c d m)
  | 0b00011#5 => if dbl then ifEven c (isOdd d || isOdd m) (.fsqrtd c (upper d) (upper m)) else .instr (.fsqrts c d m)
  | 0b01000#5 => if dbl then ifEven c (isOdd d || isOdd m) (.fcmpd c (upper d) (upper m)) else .instr (.fcmps c d m)
  | 0b01001#5 => if dbl then ifEven c (isOdd d || isOdd m) (.fcmped c (upper d) (upper m)) else .instr (.fcmpes c d m)
  | 0b01010#5 => if dbl then ifEven c (isOdd d) (.fcmpzd c (upper d) m) else .instr (.fcmpzs c d m)
  | 0b01011#5 => if dbl then ifEven c (isOdd d) (.fcmpezd c (upper d) m) else .instr (.fcmpezs c d m)
  | 0b01111#5 => if dbl then ifEven c (isOdd m) (.fcvtsd c d (upper m)) else ifEven c (isOdd d) (.fcvtds c (upper d) m)
  | 0b10000#5 => if dbl then ifEven c (isOdd d) (.fuitod c (upper d) m) else .instr (.fuitos c d m)
  | 0b10001#5 => if dbl then ifEven c (isOdd d) (.fsitod c (upper d) m) else .instr (.fsitos c d m)
  | 0b11000#5 => if dbl then ifEven c (isOdd m) (.ftouid c d (upper m)) else .instr (.ftouis c d m)
  | 0b11001#5 => if dbl then ifEven c (isOdd m) (.ftouizd c d (upper m)) else .instr (.ftouizs c d m)
  | 0b11010#5 => if dbl then ifEven c (isOdd m) (.ftosid c d (upper m)) else .instr (.ftosis c d m)
  | 0b11011#5 => if dbl then ifEven c (isOdd m) (.ftosizd c d (upper m)) else .instr (.ftosizs c d m)
  | _ => .undefined (some c) .reservedOpcode

/-- The CDP format: `pqrs` selects the operation (30_encoding.md R125, R126). -/
def decodeCdp (c : Cond) (w : Word) : Decoded :=
  let d := fieldD w
  let n := fieldN w
  let m := fieldM w
  let dbl := bitAt w 8
  let odd := isOdd d || isOdd n || isOdd m
  match field w 23 1 ++ field w 20 2 ++ field w 6 1 with
  | 0b0000#4 => if dbl then ifEven c odd (.fmacd c (upper d) (upper n) (upper m)) else .instr (.fmacs c d n m)
  | 0b0001#4 => if dbl then ifEven c odd (.fnmacd c (upper d) (upper n) (upper m)) else .instr (.fnmacs c d n m)
  | 0b0010#4 => if dbl then ifEven c odd (.fmscd c (upper d) (upper n) (upper m)) else .instr (.fmscs c d n m)
  | 0b0011#4 => if dbl then ifEven c odd (.fnmscd c (upper d) (upper n) (upper m)) else .instr (.fnmscs c d n m)
  | 0b0100#4 => if dbl then ifEven c odd (.fmuld c (upper d) (upper n) (upper m)) else .instr (.fmuls c d n m)
  | 0b0101#4 => if dbl then ifEven c odd (.fnmuld c (upper d) (upper n) (upper m)) else .instr (.fnmuls c d n m)
  | 0b0110#4 => if dbl then ifEven c odd (.faddd c (upper d) (upper n) (upper m)) else .instr (.fadds c d n m)
  | 0b0111#4 => if dbl then ifEven c odd (.fsubd c (upper d) (upper n) (upper m)) else .instr (.fsubs c d n m)
  | 0b1000#4 => if dbl then ifEven c odd (.fdivd c (upper d) (upper n) (upper m)) else .instr (.fdivs c d n m)
  | 0b1111#4 => decodeExt c dbl n d m
  | _ => .undefined (some c) .reservedOpcode

/-- The MCR and MRC format (30_encoding.md R136): opc is bits [23:21], L is bit [20], cp is bits [11:8].
FMSTAT is tested before FMRX (R142). -/
def decodeTransfer (c : Cond) (w : Word) : Decoded :=
  let n := fieldN w
  let rd := field w 12 4
  let sbz6 := field w 5 2 ++ field w 0 4
  let sbz7 := field w 7 1 ++ sbz6
  match field w 20 4 ++ field w 8 1 with
  | 0b00000#5 => .instr (.fmsr c n rd sbz6)
  | 0b00010#5 => .instr (.fmrs c rd n sbz6)
  | 0b00001#5 => ifEven c (isOdd n) (.fmdlr c (upper n) rd sbz6)
  | 0b00011#5 => ifEven c (isOdd n) (.fmrdl c rd (upper n) sbz6)
  | 0b00101#5 => ifEven c (isOdd n) (.fmdhr c (upper n) rd sbz6)
  | 0b00111#5 => ifEven c (isOdd n) (.fmrdh c rd (upper n) sbz6)
  | 0b11100#5 =>
    match sysRegOf (upper n) with
    | some reg => .instr (.fmxr c reg rd sbz7)
    | none => .undefined (some c) .undefinedRegister
  | 0b11110#5 =>
    match sysRegOf (upper n) with
    | some reg => if reg = .fpscr ∧ rd = 15#4 then .instr (.fmstat c sbz7) else .instr (.fmrx c rd reg sbz7)
    | none => .undefined (some c) .undefinedRegister
  | _ => .undefined (some c) .reservedTransfer

/-- The MCRR and MRRC format (30_encoding.md R138): L is bit [20], cp is bits [11:8]; bits [7:4] are 00M1. -/
def decodePair (c : Cond) (w : Word) : Decoded :=
  let m := fieldM w
  let rn := field w 16 4
  let rd := field w 12 4
  if bitAt w 7 || bitAt w 6 || !bitAt w 4 then .undefined (some c) .reservedOpcode
  else
    match bitAt w 20, bitAt w 8 with
    | false, false => .instr (.fmsrr c m rd rn)
    | true, false => .instr (.fmrrs c rd rn m)
    | false, true => ifEven c (isOdd m) (.fmdrr c (upper m) rd rn)
    | true, true => ifEven c (isOdd m) (.fmrrd c rd rn (upper m))

/-- The three kinds of list of a multiple transfer, by cp and bit [0] of offset8 (30_encoding.md R134, R135). -/
def byList (c : Cond) (dbl : Bool) (d : BitVec 5) (off : BitVec 8)
    (s : SReg → BitVec 8 → Instr) (dd x : DReg → BitVec 7 → Instr) : Decoded :=
  if dbl then
    ifEven c (isOdd d) ((if off.getLsbD 0 then x else dd) (upper d) (off.extractLsb' 1 7))
  else .instr (s d off)

/-- The load and store format (30_encoding.md R130): `PUW` and L select the addressing mode and direction. -/
def decodeLoadStore (c : Cond) (w : Word) : Decoded :=
  let d := fieldD w
  let rn := field w 16 4
  let off := field w 0 8
  let dbl := bitAt w 8
  let u := bitAt w 23
  match field w 23 2 ++ field w 20 2 with
  | 0b1001#4 => if dbl then ifEven c (isOdd d) (.fldd c u rn (upper d) off) else .instr (.flds c u rn d off)
  | 0b1101#4 => if dbl then ifEven c (isOdd d) (.fldd c u rn (upper d) off) else .instr (.flds c u rn d off)
  | 0b0101#4 => byList c dbl d off (.fldmsIa c rn) (.fldmdIa c rn) (.fldmxIa c rn)
  | 0b0111#4 => byList c dbl d off (.fldmsIaWb c rn) (.fldmdIaWb c rn) (.fldmxIaWb c rn)
  | 0b1011#4 => byList c dbl d off (.fldmsDbWb c rn) (.fldmdDbWb c rn) (.fldmxDbWb c rn)
  | 0b1000#4 => if dbl then ifEven c (isOdd d) (.fstd c u rn (upper d) off) else .instr (.fsts c u rn d off)
  | 0b1100#4 => if dbl then ifEven c (isOdd d) (.fstd c u rn (upper d) off) else .instr (.fsts c u rn d off)
  | 0b0100#4 => byList c dbl d off (.fstmsIa c rn) (.fstmdIa c rn) (.fstmxIa c rn)
  | 0b0110#4 => byList c dbl d off (.fstmsIaWb c rn) (.fstmdIaWb c rn) (.fstmxIaWb c rn)
  | 0b1010#4 => byList c dbl d off (.fstmsDbWb c rn) (.fstmdDbWb c rn) (.fstmxDbWb c rn)
  | _ => .undefined (some c) .addressingMode

/-- The decoder on one word, in the order of 30_encoding.md R142. -/
def decode (w : Word) : Decoded :=
  if field w 9 3 = 0b101#3 then
    match field w 24 4 with
    | 0b1110#4 =>
      match condOf (field w 28 4) with
      | none => .undefined none .unconditional
      | some c => if bitAt w 4 then decodeTransfer c w else decodeCdp c w
    | 0b1100#4 =>
      match condOf (field w 28 4) with
      | none => .undefined none .unconditional
      | some c => if field w 21 3 = 0b010#3 then decodePair c w else decodeLoadStore c w
    | 0b1101#4 =>
      match condOf (field w 28 4) with
      | none => .undefined none .unconditional
      | some c => decodeLoadStore c w
    | _ => .notVfp
  else .notVfp

/-- The word whose bytes stand in memory in this order, the least significant first (20_memory.md R92;
the order of an instruction's bytes is the core's: DESIGN CHOICE, log entry 23). -/
def wordOfBytes (b0 b1 b2 b3 : Byte) : Word := b3 ++ b2 ++ b1 ++ b0

/-- The byte of `w` at offset `k` from the word's address (20_memory.md R92). -/
def byteOfWord (w : Word) (k : Nat) : Byte := w.extractLsb' (8 * k) 8

/-- The decoder on bytes in memory order: the first four are the instruction, the others are the rest. -/
def decodeBytes (bs : List Byte) : Decoded × List Byte :=
  match bs with
  | b0 :: b1 :: b2 :: b3 :: rest => (decode (wordOfBytes b0 b1 b2 b3), rest)
  | short => (.truncated, short)

/-- The bytes of a word in memory order. -/
def bytesOfWord (w : Word) : List Byte :=
  [byteOfWord w 0, byteOfWord w 1, byteOfWord w 2, byteOfWord w 3]

/-- The instruction the decoder reads from the bits of an opcode-table row, stored as the hardware stores them;
bits above `nbits` are zero. -/
def decodeTableWord (nbits w : Nat) : Option Instr :=
  match (decodeBytes (bytesOfWord (BitVec.ofNat 32 (w % 2 ^ nbits)))).1 with
  | .instr i => some i
  | _ => none

/-! ### The encoder -/

/-- A word of the CDP format (30_encoding.md R125): `pqrs` is the primary opcode. -/
def cdpWord (c : Cond) (pqrs : BitVec 4) (dbl : BitVec 1) (d n m : BitVec 5) : Word :=
  c.code ++ 0b1110#4 ++ pqrs.extractLsb' 3 1 ++ lowest d ++ pqrs.extractLsb' 1 2 ++ upper n ++ upper d ++
    0b101#3 ++ dbl ++ lowest n ++ pqrs.extractLsb' 0 1 ++ lowest m ++ 0#1 ++ upper m

/-- A word of the load and store format (30_encoding.md R130). -/
def loadStoreWord (c : Cond) (p u w l : BitVec 1) (dbl : BitVec 1) (rn : ArmReg) (d : BitVec 5)
    (off : BitVec 8) : Word :=
  c.code ++ 0b110#3 ++ p ++ u ++ lowest d ++ w ++ l ++ rn ++ upper d ++ 0b101#3 ++ dbl ++ off

/-- A word of the MCR and MRC format (30_encoding.md R136); `sbz` is [6:5]:[3:0]. -/
def transferWord (c : Cond) (opc : BitVec 3) (l : BitVec 1) (dbl : BitVec 1) (n : BitVec 5) (rd : ArmReg)
    (sbz : BitVec 6) : Word :=
  c.code ++ 0b1110#4 ++ opc ++ l ++ upper n ++ rd ++ 0b101#3 ++ dbl ++ lowest n ++ sbz.extractLsb' 4 2 ++
    1#1 ++ sbz.extractLsb' 0 4

/-- A word of the MCRR and MRRC format (30_encoding.md R138). -/
def pairWord (c : Cond) (l : BitVec 1) (dbl : BitVec 1) (rn rd : ArmReg) (m : BitVec 5) : Word :=
  c.code ++ 0b1100010#7 ++ l ++ rn ++ rd ++ 0b101#3 ++ dbl ++ 0b00#2 ++ lowest m ++ 1#1 ++ upper m

/-- FMXR and FMRX: `reg` in Fn, `sbz` is N:[6:5]:[3:0] (30_encoding.md R136, R137). -/
def sysWord (c : Cond) (l : BitVec 1) (reg : SysReg) (rd : ArmReg) (sbz : BitVec 7) : Word :=
  transferWord c 0b111#3 l 0#1 (reg.code ++ sbz.extractLsb' 6 1) rd (sbz.extractLsb' 0 6)

/-- The bit of a Boolean. -/
def bit1 (b : Bool) : BitVec 1 := BitVec.ofBool b

/-- The word of an instruction (30_encoding.md R125 to R138). -/
def encode (i : Instr) : Word :=
  match i with
  | .fmacs c d n m => cdpWord c 0b0000#4 0#1 d n m
  | .fmacd c d n m => cdpWord c 0b0000#4 1#1 (evenReg d) (evenReg n) (evenReg m)
  | .fnmacs c d n m => cdpWord c 0b0001#4 0#1 d n m
  | .fnmacd c d n m => cdpWord c 0b0001#4 1#1 (evenReg d) (evenReg n) (evenReg m)
  | .fmscs c d n m => cdpWord c 0b0010#4 0#1 d n m
  | .fmscd c d n m => cdpWord c 0b0010#4 1#1 (evenReg d) (evenReg n) (evenReg m)
  | .fnmscs c d n m => cdpWord c 0b0011#4 0#1 d n m
  | .fnmscd c d n m => cdpWord c 0b0011#4 1#1 (evenReg d) (evenReg n) (evenReg m)
  | .fmuls c d n m => cdpWord c 0b0100#4 0#1 d n m
  | .fmuld c d n m => cdpWord c 0b0100#4 1#1 (evenReg d) (evenReg n) (evenReg m)
  | .fnmuls c d n m => cdpWord c 0b0101#4 0#1 d n m
  | .fnmuld c d n m => cdpWord c 0b0101#4 1#1 (evenReg d) (evenReg n) (evenReg m)
  | .fadds c d n m => cdpWord c 0b0110#4 0#1 d n m
  | .faddd c d n m => cdpWord c 0b0110#4 1#1 (evenReg d) (evenReg n) (evenReg m)
  | .fsubs c d n m => cdpWord c 0b0111#4 0#1 d n m
  | .fsubd c d n m => cdpWord c 0b0111#4 1#1 (evenReg d) (evenReg n) (evenReg m)
  | .fdivs c d n m => cdpWord c 0b1000#4 0#1 d n m
  | .fdivd c d n m => cdpWord c 0b1000#4 1#1 (evenReg d) (evenReg n) (evenReg m)
  | .fcpys c d m => cdpWord c 0b1111#4 0#1 d 0b00000#5 m
  | .fcpyd c d m => cdpWord c 0b1111#4 1#1 (evenReg d) 0b00000#5 (evenReg m)
  | .fabss c d m => cdpWord c 0b1111#4 0#1 d 0b00001#5 m
  | .fabsd c d m => cdpWord c 0b1111#4 1#1 (evenReg d) 0b00001#5 (evenReg m)
  | .fnegs c d m => cdpWord c 0b1111#4 0#1 d 0b00010#5 m
  | .fnegd c d m => cdpWord c 0b1111#4 1#1 (evenReg d) 0b00010#5 (evenReg m)
  | .fsqrts c d m => cdpWord c 0b1111#4 0#1 d 0b00011#5 m
  | .fsqrtd c d m => cdpWord c 0b1111#4 1#1 (evenReg d) 0b00011#5 (evenReg m)
  | .fcmps c d m => cdpWord c 0b1111#4 0#1 d 0b01000#5 m
  | .fcmpd c d m => cdpWord c 0b1111#4 1#1 (evenReg d) 0b01000#5 (evenReg m)
  | .fcmpes c d m => cdpWord c 0b1111#4 0#1 d 0b01001#5 m
  | .fcmped c d m => cdpWord c 0b1111#4 1#1 (evenReg d) 0b01001#5 (evenReg m)
  | .fcmpzs c d sbz => cdpWord c 0b1111#4 0#1 d 0b01010#5 sbz
  | .fcmpzd c d sbz => cdpWord c 0b1111#4 1#1 (evenReg d) 0b01010#5 sbz
  | .fcmpezs c d sbz => cdpWord c 0b1111#4 0#1 d 0b01011#5 sbz
  | .fcmpezd c d sbz => cdpWord c 0b1111#4 1#1 (evenReg d) 0b01011#5 sbz
  | .fcvtds c d m => cdpWord c 0b1111#4 0#1 (evenReg d) 0b01111#5 m
  | .fcvtsd c d m => cdpWord c 0b1111#4 1#1 d 0b01111#5 (evenReg m)
  | .fuitos c d m => cdpWord c 0b1111#4 0#1 d 0b10000#5 m
  | .fuitod c d m => cdpWord c 0b1111#4 1#1 (evenReg d) 0b10000#5 m
  | .fsitos c d m => cdpWord c 0b1111#4 0#1 d 0b10001#5 m
  | .fsitod c d m => cdpWord c 0b1111#4 1#1 (evenReg d) 0b10001#5 m
  | .ftouis c d m => cdpWord c 0b1111#4 0#1 d 0b11000#5 m
  | .ftouid c d m => cdpWord c 0b1111#4 1#1 d 0b11000#5 (evenReg m)
  | .ftouizs c d m => cdpWord c 0b1111#4 0#1 d 0b11001#5 m
  | .ftouizd c d m => cdpWord c 0b1111#4 1#1 d 0b11001#5 (evenReg m)
  | .ftosis c d m => cdpWord c 0b1111#4 0#1 d 0b11010#5 m
  | .ftosid c d m => cdpWord c 0b1111#4 1#1 d 0b11010#5 (evenReg m)
  | .ftosizs c d m => cdpWord c 0b1111#4 0#1 d 0b11011#5 m
  | .ftosizd c d m => cdpWord c 0b1111#4 1#1 d 0b11011#5 (evenReg m)
  | .flds c u rn d off => loadStoreWord c 1#1 (bit1 u) 0#1 1#1 0#1 rn d off
  | .fldd c u rn d off => loadStoreWord c 1#1 (bit1 u) 0#1 1#1 1#1 rn (evenReg d) off
  | .fsts c u rn d off => loadStoreWord c 1#1 (bit1 u) 0#1 0#1 0#1 rn d off
  | .fstd c u rn d off => loadStoreWord c 1#1 (bit1 u) 0#1 0#1 1#1 rn (evenReg d) off
  | .fldmsIa c rn d n => loadStoreWord c 0#1 1#1 0#1 1#1 0#1 rn d n
  | .fldmsIaWb c rn d n => loadStoreWord c 0#1 1#1 1#1 1#1 0#1 rn d n
  | .fldmsDbWb c rn d n => loadStoreWord c 1#1 0#1 1#1 1#1 0#1 rn d n
  | .fldmdIa c rn d n => loadStoreWord c 0#1 1#1 0#1 1#1 1#1 rn (evenReg d) (n ++ 0#1)
  | .fldmdIaWb c rn d n => loadStoreWord c 0#1 1#1 1#1 1#1 1#1 rn (evenReg d) (n ++ 0#1)
  | .fldmdDbWb c rn d n => loadStoreWord c 1#1 0#1 1#1 1#1 1#1 rn (evenReg d) (n ++ 0#1)
  | .fldmxIa c rn d n => loadStoreWord c 0#1 1#1 0#1 1#1 1#1 rn (evenReg d) (n ++ 1#1)
  | .fldmxIaWb c rn d n => loadStoreWord c 0#1 1#1 1#1 1#1 1#1 rn (evenReg d) (n ++ 1#1)
  | .fldmxDbWb c rn d n => loadStoreWord c 1#1 0#1 1#1 1#1 1#1 rn (evenReg d) (n ++ 1#1)
  | .fstmsIa c rn d n => loadStoreWord c 0#1 1#1 0#1 0#1 0#1 rn d n
  | .fstmsIaWb c rn d n => loadStoreWord c 0#1 1#1 1#1 0#1 0#1 rn d n
  | .fstmsDbWb c rn d n => loadStoreWord c 1#1 0#1 1#1 0#1 0#1 rn d n
  | .fstmdIa c rn d n => loadStoreWord c 0#1 1#1 0#1 0#1 1#1 rn (evenReg d) (n ++ 0#1)
  | .fstmdIaWb c rn d n => loadStoreWord c 0#1 1#1 1#1 0#1 1#1 rn (evenReg d) (n ++ 0#1)
  | .fstmdDbWb c rn d n => loadStoreWord c 1#1 0#1 1#1 0#1 1#1 rn (evenReg d) (n ++ 0#1)
  | .fstmxIa c rn d n => loadStoreWord c 0#1 1#1 0#1 0#1 1#1 rn (evenReg d) (n ++ 1#1)
  | .fstmxIaWb c rn d n => loadStoreWord c 0#1 1#1 1#1 0#1 1#1 rn (evenReg d) (n ++ 1#1)
  | .fstmxDbWb c rn d n => loadStoreWord c 1#1 0#1 1#1 0#1 1#1 rn (evenReg d) (n ++ 1#1)
  | .fmsr c n rd sbz => transferWord c 0b000#3 0#1 0#1 n rd sbz
  | .fmrs c rd n sbz => transferWord c 0b000#3 1#1 0#1 n rd sbz
  | .fmdlr c n rd sbz => transferWord c 0b000#3 0#1 1#1 (evenReg n) rd sbz
  | .fmrdl c rd n sbz => transferWord c 0b000#3 1#1 1#1 (evenReg n) rd sbz
  | .fmdhr c n rd sbz => transferWord c 0b001#3 0#1 1#1 (evenReg n) rd sbz
  | .fmrdh c rd n sbz => transferWord c 0b001#3 1#1 1#1 (evenReg n) rd sbz
  | .fmxr c reg rd sbz => sysWord c 0#1 reg rd sbz
  | .fmrx c rd reg sbz => sysWord c 1#1 reg rd sbz
  | .fmstat c sbz => sysWord c 1#1 .fpscr 15#4 sbz
  | .fmdrr c m rd rn => pairWord c 0#1 1#1 rn rd (evenReg m)
  | .fmrrd c rd rn m => pairWord c 1#1 1#1 rn rd (evenReg m)
  | .fmsrr c m rd rn => pairWord c 0#1 0#1 rn rd m
  | .fmrrs c rd rn m => pairWord c 1#1 0#1 rn rd m

/-- `w` with the register field `Fd : D` replaced (60_exceptions.md R415). -/
def setFieldD (w : Word) (r : BitVec 5) : Word :=
  field w 23 9 ++ lowest r ++ field w 16 6 ++ upper r ++ field w 0 12

/-- `w` with the register field `Fn : N` replaced (60_exceptions.md R415). -/
def setFieldN (w : Word) (r : BitVec 5) : Word :=
  field w 20 12 ++ upper r ++ field w 8 8 ++ lowest r ++ field w 0 7

/-- `w` with the register field `Fm : M` replaced (60_exceptions.md R415). -/
def setFieldM (w : Word) (r : BitVec 5) : Word :=
  field w 6 26 ++ lowest r ++ field w 4 1 ++ upper r

/-- `w` with its condition forced to 1110, AL (10_state.md R72, R73). -/
def alwaysWord (w : Word) : Word := 0b1110#4 ++ field w 0 28

end Sys2Proof
end

