-- ==== Sys2Proof/Config.lean ====
section
/-! DEFINITION. What the implementation fixes (constants with a value the spec states) and the free values:
opaque constants without a body, which no proof can evaluate (00_scope.md R7, R8, R14). -/

namespace Sys2Proof

/-- FPSID reads 0x410120B3 always (10_state.md R50). -/
def Config.fpsid : Word := 0x410120B3#32

/-- MVFR0 reads 0x11111111 always (10_state.md R74). -/
def Config.mvfr0 : Word := 0x11111111#32

/-- MVFR1 reads 0x00000000 always (10_state.md R75). -/
def Config.mvfr1 : Word := 0x00000000#32

/-- A free Boolean: `draw` of a two-element set (00_scope.md R14), the `k`-th one of a run.
DESIGN CHOICE, safe: log entry 14. -/
opaque Config.freeBool : Nat → Bool

/-- A free word: `draw(all 32-bit values)` (10_state.md R73), the `k`-th one of a run.
DESIGN CHOICE, safe: log entry 14. -/
opaque Config.freeWord : Nat → Word

/-- FCMP_FZ_FLUSH: whether a compare with FZ = 1 treats a subnormal operand as +0 (40_cdp_common.md R186).
Both values are admitted. DESIGN CHOICE, safe: log entry 32. -/
opaque Config.fcmpFzFlush : Bool

/-- IXE_BOUNCES_COPY: whether FCPY, FABS and FNEG bounce when IXE = 1 (40_cdp_common.md R192).
Both values are admitted. DESIGN CHOICE, safe: log entry 32. -/
opaque Config.ixeBouncesCopy : Bool

/-- The 32 bits a trapped overflow or underflow of FCVTSD leaves in its destination when the intermediate result
of IEEE 754 does not fit the single format; the argument is the double operand. The spec states no value there
(40_cdp_common.md R205). DESIGN CHOICE, safe: log entry 34. -/
opaque Config.cvtTrapResult : BitVec 64 → Word

/-- SUPPORT_CODE as far as it is a parameter (00_scope.md R8, 40_cdp_common.md R206): the NaN the support code delivers
with DN = 0 for a NaN operand. The arguments are the operation, the control bits of FPSCR, the width of the destination and
the patterns of the instruction's operands; `none` is the selection of R206, `some v` another one. DESIGN CHOICE, safe:
log entry 30. -/
opaque Config.supportNan : Machine.CdpOp → Word → Nat → List (BitVec 64) → Option (BitVec 64)

end Sys2Proof
end

