-- ==== Sys2Proof/Machine/Flags.lean ====
section
/-! DEFINITION. Every field of FPSCR, FPEXC and CPSR the spec names, and every flag computation
(10_state.md R54 to R71; 30_encoding.md R122; 45_ls_register_transfer.md R359). -/

namespace Sys2Proof.Machine

/-! ### FPSCR (10_state.md R54) -/

/-- FPSCR.DN, default NaN mode. -/
def Fpscr.dn (w : Word) : Bool := bitAt w 25
/-- FPSCR.FZ, flush-to-zero mode. -/
def Fpscr.fz (w : Word) : Bool := bitAt w 24
/-- FPSCR.STRIDE (10_state.md R59). -/
def Fpscr.stride (w : Word) : BitVec 2 := field w 20 2
/-- FPSCR.LEN (10_state.md R58). -/
def Fpscr.len (w : Word) : Nat := (field w 16 3).toNat
/-- FPSCR.IDE. -/
def Fpscr.ide (w : Word) : Bool := bitAt w 15
/-- FPSCR.IXE. -/
def Fpscr.ixe (w : Word) : Bool := bitAt w 12
/-- FPSCR.UFE. -/
def Fpscr.ufe (w : Word) : Bool := bitAt w 11
/-- FPSCR.OFE. -/
def Fpscr.ofe (w : Word) : Bool := bitAt w 10
/-- FPSCR.DZE. -/
def Fpscr.dze (w : Word) : Bool := bitAt w 9
/-- FPSCR.IOE. -/
def Fpscr.ioe (w : Word) : Bool := bitAt w 8
/-- FPSCR[31:28]: N, Z, C, V. -/
def Fpscr.nzcv (w : Word) : BitVec 4 := field w 28 4

/-- The Should-Be-Zero positions of FPSCR (10_state.md R54). -/
def Fpscr.sbzMask : Word := 0x0C086060#32

/-- The control bits of FPSCR: DN, FZ, Rmode, STRIDE, LEN and the six enables (10_state.md R54). -/
def Fpscr.controlMask : Word := 0x03F79F00#32

/-- The four rounding modes (40_cdp_common.md R180). -/
inductive Rounding where
  | nearest | plusInfinity | minusInfinity | zero
deriving DecidableEq, Repr

/-- FPSCR.Rmode (10_state.md R54). -/
def Fpscr.rmode (w : Word) : Rounding :=
  match bitAt w 23, bitAt w 22 with
  | false, false => .nearest
  | false, true => .plusInfinity
  | true, false => .minusInfinity
  | true, true => .zero

/-- RunFast mode: FZ = 1, DN = 1 and all six enables clear (00_scope.md R19). -/
def Fpscr.runFast (w : Word) : Bool :=
  Fpscr.fz w && Fpscr.dn w && !Fpscr.ide w && !Fpscr.ixe w && !Fpscr.ufe w && !Fpscr.ofe w && !Fpscr.dze w &&
    !Fpscr.ioe w

/-- The six cumulative flags an operation raises (10_state.md R62). -/
structure Cumulative where
  idc : Bool := false
  ixc : Bool := false
  ufc : Bool := false
  ofc : Bool := false
  dzc : Bool := false
  ioc : Bool := false
deriving DecidableEq, Repr

/-- The union of two sets of cumulative flags. -/
def Cumulative.or (a b : Cumulative) : Cumulative where
  idc := a.idc || b.idc
  ixc := a.ixc || b.ixc
  ufc := a.ufc || b.ufc
  ofc := a.ofc || b.ofc
  dzc := a.dzc || b.dzc
  ioc := a.ioc || b.ioc

/-- The cumulative flags at their positions in FPSCR: [7] and [4:0] (10_state.md R54). -/
def Cumulative.word (f : Cumulative) : Word :=
  0#24 ++ bit1 f.idc ++ 0#2 ++ bit1 f.ixc ++ bit1 f.ufc ++ bit1 f.ofc ++ bit1 f.dzc ++ bit1 f.ioc

/-- FPSCR with cumulative flags OR-ed in: they are sticky (10_state.md R62). -/
def Fpscr.raise (w : Word) (f : Cumulative) : Word := w ||| f.word

/-- FPSCR with N, Z, C, V replaced (10_state.md R55). -/
def Fpscr.setNzcv (w : Word) (b : BitVec 4) : Word := b ++ field w 0 28

/-- The four results of a comparison (10_state.md R55). -/
inductive Ordering4 where
  | less | equal | greater | unordered
deriving DecidableEq, Repr

/-- The flags N, Z, C, V of a comparison (10_state.md R55, 42_fmac_copy_compare_convert.md R258). -/
def Ordering4.nzcv (r : Ordering4) : BitVec 4 :=
  match r with
  | .less => 0b1000#4
  | .equal => 0b0110#4
  | .greater => 0b0010#4
  | .unordered => 0b0011#4

/-! ### FPEXC (10_state.md R65) -/

/-- FPEXC.EX, the exceptional state (10_state.md R66). -/
def Fpexc.ex (w : Word) : Bool := bitAt w 31
/-- FPEXC.EN, the enable bit (10_state.md R67). -/
def Fpexc.en (w : Word) : Bool := bitAt w 30
/-- FPEXC.FP2V, FPINST2 valid (10_state.md R69). -/
def Fpexc.fp2v (w : Word) : Bool := bitAt w 28
/-- FPEXC.VECITR (10_state.md R68). -/
def Fpexc.vecitr (w : Word) : BitVec 3 := field w 8 3

/-- The Should-Be-Zero positions of FPEXC (10_state.md R65). -/
def Fpexc.sbzMask : Word := 0x2FFFF872#32

/-- The number of iterations that remain after the exceptional one (10_state.md R68): `b111` is none. -/
def Fpexc.remaining (w : Word) : Nat := ((Fpexc.vecitr w).toNat + 1) % 8

/-- The VECITR of `remaining` iterations: (remaining - 1) mod 8 (10_state.md R68). -/
def vecitrOf (remaining : Nat) : BitVec 3 := BitVec.ofNat 3 (remaining + 7)

/-- The cause flags of a bounce: INV, UFC, OFC, IOC of FPEXC (60_exceptions.md R416). -/
structure BounceFlags where
  inv : Bool := false
  ufc : Bool := false
  ofc : Bool := false
  ioc : Bool := false
deriving DecidableEq, Repr

/-- The cause flags at their positions in FPEXC: [7], [3], [2], [0] (10_state.md R65). -/
def BounceFlags.word (f : BounceFlags) : Word :=
  0#24 ++ bit1 f.inv ++ 0#3 ++ bit1 f.ufc ++ bit1 f.ofc ++ 0#1 ++ bit1 f.ioc

/-- FPEXC after a bounce with `remaining` iterations to go: EX set, VECITR replaced, the cause flags OR-ed in,
EN and FP2V as they were (60_exceptions.md R415). -/
def Fpexc.bounce (w : Word) (remaining : Nat) (f : BounceFlags) : Word :=
  (1#1 ++ field w 11 20 ++ vecitrOf remaining ++ field w 0 8) ||| f.word

/-- FPEXC with FP2V set (60_exceptions.md R426). -/
def Fpexc.setFp2v (w : Word) : Word := w ||| 0x10000000#32

/-- FPEXC with EX, FP2V, INV, UFC, OFC and IOC cleared, as the support code leaves it (60_exceptions.md R449). -/
def Fpexc.clearState (w : Word) : Word := w &&& 0x6FFFFF72#32

/-! ### CPSR (00_scope.md R21, 60_exceptions.md R436) -/

/-- CPSR.N. -/
def Cpsr.n (w : Word) : Bool := bitAt w 31
/-- CPSR.Z. -/
def Cpsr.z (w : Word) : Bool := bitAt w 30
/-- CPSR.C. -/
def Cpsr.c (w : Word) : Bool := bitAt w 29
/-- CPSR.V. -/
def Cpsr.v (w : Word) : Bool := bitAt w 28
/-- CPSR.I, IRQ disabled. -/
def Cpsr.i (w : Word) : Bool := bitAt w 7
/-- CPSR.F, FIQ disabled. -/
def Cpsr.f (w : Word) : Bool := bitAt w 6
/-- CPSR.T, Thumb state. -/
def Cpsr.t (w : Word) : Bool := bitAt w 5
/-- The processor mode, CPSR[4:0]. -/
def Cpsr.mode (w : Word) : BitVec 5 := field w 0 5

/-- User mode. PRESUMED (the ARM architecture's number): log entry 36. -/
def Mode.user : BitVec 5 := 0b10000#5
/-- Undefined mode (60_exceptions.md R436). -/
def Mode.undefined : BitVec 5 := 0b11011#5

/-- The seven modes of the core (60_exceptions.md R450). PRESUMED numbers: log entry 36. -/
def Mode.all : List (BitVec 5) :=
  [Mode.user, 0b10001#5, 0b10010#5, 0b10011#5, 0b10111#5, Mode.undefined, 0b11111#5]

/-- A privileged mode: every mode but User (60_exceptions.md R450). -/
def Cpsr.privileged (w : Word) : Bool := Cpsr.mode w != Mode.user

/-- CPSR on entry to the Undefined Instruction exception: mode Undefined, T clear, I set, the rest as it was
(60_exceptions.md R436). -/
def Cpsr.enterUndefined (w : Word) : Word := field w 8 24 ++ 1#1 ++ field w 6 1 ++ 0#1 ++ Mode.undefined

/-- CPSR with N, Z, C, V replaced (45_ls_register_transfer.md R359). -/
def Cpsr.setNzcv (w : Word) (b : BitVec 4) : Word := b ++ field w 0 28

/-- `ConditionPassed(cond)` on CPSR (30_encoding.md R122). -/
def condPassed (c : Cond) (w : Word) : Bool :=
  match c with
  | .eq => Cpsr.z w
  | .ne => !Cpsr.z w
  | .cs => Cpsr.c w
  | .cc => !Cpsr.c w
  | .mi => Cpsr.n w
  | .pl => !Cpsr.n w
  | .vs => Cpsr.v w
  | .vc => !Cpsr.v w
  | .hi => Cpsr.c w && !Cpsr.z w
  | .ls => !Cpsr.c w || Cpsr.z w
  | .ge => Cpsr.n w == Cpsr.v w
  | .lt => Cpsr.n w != Cpsr.v w
  | .gt => !Cpsr.z w && Cpsr.n w == Cpsr.v w
  | .le => Cpsr.z w || Cpsr.n w != Cpsr.v w
  | .al => true

end Sys2Proof.Machine
end

