-- ==== Sys2Proof/Machine/Fp.lean ====
section
/-! DEFINITION. The floating-point formats, their exact values and the rounding of an exact value to a format
(10_state.md R34, R35, R40, R41; 40_cdp_common.md R175 to R183, R206, R207). The numeric meaning is IEEE 754, the
spec's general knowledge: PRESUMED, log entry 33. -/

namespace Sys2Proof.Machine

/-- The two formats (40_cdp_common.md R175). -/
inductive Prec where
  | single | double
deriving DecidableEq, Repr

/-- The number of fraction bits, T (40_cdp_common.md R175). -/
def Prec.fracBits (p : Prec) : Nat :=
  match p with
  | .single => 23
  | .double => 52

/-- The number of exponent bits (40_cdp_common.md R175). -/
def Prec.expBits (p : Prec) : Nat :=
  match p with
  | .single => 8
  | .double => 11

/-- The exponent bias (40_cdp_common.md R175). -/
def Prec.bias (p : Prec) : Int :=
  match p with
  | .single => 127
  | .double => 1023

/-- The maximum exponent field, M (40_cdp_common.md R175). -/
def Prec.maxExp (p : Prec) : Nat :=
  match p with
  | .single => 0xFF
  | .double => 0x7FF

/-- The least exponent of a normal value, emin (40_cdp_common.md R175). -/
def Prec.emin (p : Prec) : Int :=
  match p with
  | .single => -126
  | .double => -1022

/-- The greatest exponent of a normal value, emax (40_cdp_common.md R175). -/
def Prec.emax (p : Prec) : Int := p.bias

/-- The exponent adjustment of a trapped overflow or underflow (40_cdp_common.md R205). -/
def Prec.adjust (p : Prec) : Int :=
  match p with
  | .single => 192
  | .double => 1536

/-- The fields of a floating-point pattern: sign, exponent field and fraction field (10_state.md R34, R35). -/
structure Fp where
  neg : Bool
  exp : Nat
  frac : Nat
deriving DecidableEq, Repr

/-- The fields of a pattern held in 64 bits; a single-precision pattern is in the lower 32 (10_state.md R34, R35). -/
def unpack (p : Prec) (x : BitVec 64) : Fp where
  neg := x.getLsbD (p.fracBits + p.expBits)
  exp := x.toNat / 2 ^ p.fracBits % 2 ^ p.expBits
  frac := x.toNat % 2 ^ p.fracBits

/-- The pattern of the fields. -/
def pack (p : Prec) (f : Fp) : BitVec 64 :=
  BitVec.ofNat 64 ((f.neg.toNat * 2 ^ p.expBits + f.exp) * 2 ^ p.fracBits + f.frac)

/-- The six classes of a pattern (10_state.md R40). -/
inductive FpClass where
  | zero | subnormal | normal | infinity | qnan | snan
deriving DecidableEq, Repr

/-- The class of a pattern (10_state.md R40, 40_cdp_common.md R176). -/
def Fp.cls (p : Prec) (f : Fp) : FpClass :=
  if f.exp = 0 then (if f.frac = 0 then .zero else .subnormal)
  else if f.exp = p.maxExp then
    (if f.frac = 0 then .infinity else if f.frac < 2 ^ (p.fracBits - 1) then .snan else .qnan)
  else .normal

/-- A NaN of either kind. -/
def Fp.isNan (p : Prec) (f : Fp) : Bool := f.cls p == .qnan || f.cls p == .snan
/-- A signaling NaN. -/
def Fp.isSnan (p : Prec) (f : Fp) : Bool := f.cls p == .snan
/-- A subnormal value. -/
def Fp.isSub (p : Prec) (f : Fp) : Bool := f.cls p == .subnormal
/-- An infinity. -/
def Fp.isInf (p : Prec) (f : Fp) : Bool := f.cls p == .infinity
/-- A zero of either sign. -/
def Fp.isZero (p : Prec) (f : Fp) : Bool := f.cls p == .zero
/-- A normal value. -/
def Fp.isNormal (p : Prec) (f : Fp) : Bool := f.cls p == .normal

/-- The zero of a sign (40_cdp_common.md R177). -/
def fpZero (neg : Bool) : Fp := ⟨neg, 0, 0⟩
/-- The infinity of a sign (40_cdp_common.md R177). -/
def fpInf (p : Prec) (neg : Bool) : Fp := ⟨neg, p.maxExp, 0⟩
/-- The default NaN (10_state.md R41). -/
def defaultNan (p : Prec) : Fp := ⟨false, p.maxExp, 2 ^ (p.fracBits - 1)⟩
/-- The largest finite value of a sign (40_cdp_common.md R175). -/
def maxFinite (p : Prec) (neg : Bool) : Fp := ⟨neg, p.maxExp - 1, 2 ^ p.fracBits - 1⟩
/-- A pattern with its sign bit inverted if `b`. -/
def Fp.flip (f : Fp) (b : Bool) : Fp := { f with neg := f.neg != b }

/-- An exact value `(-1)^neg * (num + e) * 2^exp`, with `e = 0` when `sticky` is false and `0 < e < 1` when it is
true: what rounding needs of a quotient or a square root (40_cdp_common.md R178). -/
structure Exact where
  neg : Bool
  num : Nat
  exp : Int
  sticky : Bool := false
deriving DecidableEq, Repr

/-- The value of a finite pattern (40_cdp_common.md R176). -/
def Fp.value (p : Prec) (f : Fp) : Exact :=
  if f.exp = 0 then ⟨f.neg, f.frac, p.emin - p.fracBits, false⟩
  else ⟨f.neg, 2 ^ p.fracBits + f.frac, (f.exp : Int) - p.bias - p.fracBits, false⟩

/-- Rounding of `num + e`, `e` as in `Exact`, to a multiple of `2^k`: the quotient and whether it is inexact
(40_cdp_common.md R180). When `sticky` holds `k` must be positive. -/
def roundUnits (rm : Rounding) (neg : Bool) (num : Nat) (sticky : Bool) (k : Nat) : Nat × Bool :=
  let q := num / 2 ^ k
  let rest := num % 2 ^ k
  let inexact := rest != 0 || sticky
  let above := decide (2 ^ k < 2 * rest) || (decide (2 * rest = 2 ^ k) && sticky)
  let tie := decide (2 * rest = 2 ^ k) && !sticky
  let up :=
    match rm with
    | .nearest => above || (tie && q % 2 == 1)
    | .plusInfinity => inexact && !neg
    | .minusInfinity => inexact && neg
    | .zero => false
  (if up then q + 1 else q, inexact)

/-- `round_to_grid(rm, v, 2^g)` as a multiple of the grid, with whether it differs from `v` (40_cdp_common.md R180). -/
def roundToGrid (rm : Rounding) (v : Exact) (g : Int) : Nat × Bool :=
  if v.exp ≤ g then roundUnits rm v.neg v.num v.sticky (g - v.exp).toNat
  else (v.num * 2 ^ (v.exp - g).toNat, v.sticky)

/-- `floor(log2 |v|)` of a nonzero value (40_cdp_common.md R181). -/
def Exact.log2 (v : Exact) : Int := (Nat.log2 v.num : Int) + v.exp

/-- `v` rounded to `T + 1` significant bits with unbounded exponent: the significand in `[2^T, 2^(T+1))`, its
exponent and whether it differs from `v` (40_cdp_common.md R181). -/
def roundUnbounded (p : Prec) (rm : Rounding) (v : Exact) : Nat × Int × Bool :=
  let q := roundToGrid rm v (v.log2 - p.fracBits)
  if q.1 = 2 ^ (p.fracBits + 1) then (2 ^ p.fracBits, v.log2 + 1, q.2) else (q.1, v.log2, q.2)

/-- Table 5-6, the result of an overflow (40_cdp_common.md R182). -/
def overflowResult (p : Prec) (rm : Rounding) (neg : Bool) : Fp :=
  match rm with
  | .nearest => fpInf p neg
  | .zero => maxFinite p neg
  | .plusInfinity => if neg then maxFinite p true else fpInf p false
  | .minusInfinity => if neg then fpInf p true else maxFinite p false

/-- A rounded result: the pattern, the cumulative flags, whether the rounded value is tiny with FZ = 0, and the
intermediate result a trap handler is given (40_cdp_common.md R181, R205). -/
structure Rounded where
  val : Fp
  flags : Cumulative := {}
  tiny : Bool := false
  inter : Fp := fpZero false
deriving DecidableEq, Repr

/-- The normal pattern of a significand in `[2^T, 2^(T+1))` and its exponent (40_cdp_common.md R181). -/
def encodeNormal (p : Prec) (neg : Bool) (sig : Nat) (e : Int) : Fp :=
  ⟨neg, (e + p.bias).toNat, sig - 2 ^ p.fracBits⟩

/-- `subnormal_result` (40_cdp_common.md R207): `sig` and `e` are the value rounded with unbounded exponent. -/
def subnormalResult (p : Prec) (rm : Rounding) (v : Exact) (sig : Nat) (e : Int) : Fp × Cumulative :=
  let d := roundToGrid rm v (p.emin - p.fracBits)
  let val : Fp := if d.1 = 2 ^ p.fracBits then ⟨v.neg, 1, 0⟩ else ⟨v.neg, 0, d.1⟩
  (val, { ixc := d.2, ufc := d.1 * 2 ^ (p.emin - e).toNat != sig })

/-- `fp_round(F, rm, v)` of a nonzero value (40_cdp_common.md R181 to R183, R207). -/
def fpRound (p : Prec) (fz : Bool) (rm : Rounding) (v : Exact) : Rounded :=
  if fz && decide (v.log2 < p.emin) then { val := fpZero false, flags := { ufc := true } }
  else
    let r := roundUnbounded p rm v
    if p.emax < r.2.1 then
      { val := overflowResult p rm v.neg, flags := { ofc := true, ixc := true },
        inter := encodeNormal p v.neg r.1 (r.2.1 - p.adjust) }
    else if r.2.1 < p.emin then
      let d := subnormalResult p rm v r.1 r.2.1
      { val := d.1, flags := d.2, tiny := true, inter := encodeNormal p v.neg r.1 (r.2.1 + p.adjust) }
    else { val := encodeNormal p v.neg r.1 r.2.1, flags := { ixc := r.2.2 } }

/-- What an operation computes on operands that are not NaN, before rounding (40_cdp_common.md R191, R203). -/
inductive Outcome where
  /-- An invalid operation (R194). -/
  | invalid
  /-- A division by zero, with the sign of the infinity (R195). -/
  | divideByZero (neg : Bool)
  /-- An exact zero or infinity (R179, R203). -/
  | special (val : Fp)
  /-- A nonzero finite value to be rounded. -/
  | value (v : Exact)
deriving DecidableEq, Repr

/-- The pattern and the flags of an outcome whose exceptions are all disabled (40_cdp_common.md R191). -/
def finish (p : Prec) (fz : Bool) (rm : Rounding) (o : Outcome) : Rounded :=
  match o with
  | .invalid => { val := defaultNan p, flags := { ioc := true } }
  | .divideByZero neg => { val := fpInf p neg, flags := { dzc := true } }
  | .special val => { val := val }
  | .value v => fpRound p fz rm v

/-- The magnitude of `v` in units of `2^g`, for `g` at most its exponent, with its sign. -/
def Exact.units (v : Exact) (g : Int) : Int :=
  let m : Int := v.num * 2 ^ (v.exp - g).toNat
  if v.neg then -m else m

/-- The sum of two finite values of which one is nonzero; an exact cancellation has the sign of R179. -/
def addExact (rm : Rounding) (a b : Exact) : Outcome :=
  let g := min a.exp b.exp
  let sum := a.units g + b.units g
  if sum = 0 then .special (fpZero (rm == .minusInfinity)) else .value ⟨decide (sum < 0), sum.natAbs, g, false⟩

/-- `a + b` without NaN operands (41_fmac_arith.md R221); a subtraction has the sign of `b` inverted before. -/
def addOutcome (p : Prec) (rm : Rounding) (a b : Fp) : Outcome :=
  if a.isInf p && b.isInf p && a.neg != b.neg then .invalid
  else if a.isInf p then .special a
  else if b.isInf p then .special b
  else if a.isZero p && b.isZero p then
    .special (fpZero (if a.neg == b.neg then a.neg else rm == .minusInfinity))
  else addExact rm (a.value p) (b.value p)

/-- `a * b` without NaN operands (41_fmac_arith.md R222). -/
def mulOutcome (p : Prec) (a b : Fp) : Outcome :=
  let neg := a.neg != b.neg
  if (a.isZero p && b.isInf p) || (a.isInf p && b.isZero p) then .invalid
  else if a.isInf p || b.isInf p then .special (fpInf p neg)
  else if a.isZero p || b.isZero p then .special (fpZero neg)
  else .value ⟨neg, (a.value p).num * (b.value p).num, (a.value p).exp + (b.value p).exp, false⟩

/-- `a / b` without NaN operands (43_ds_divide_sqrt.md R301). The quotient is taken to enough bits that every
rounding is decided by them and the sticky remainder (40_cdp_common.md R178). -/
def divOutcome (p : Prec) (a b : Fp) : Outcome :=
  let neg := a.neg != b.neg
  if (a.isZero p && b.isZero p) || (a.isInf p && b.isInf p) then .invalid
  else if a.isInf p then .special (fpInf p neg)
  else if b.isInf p then .special (fpZero neg)
  else if b.isZero p then .divideByZero neg
  else if a.isZero p then .special (fpZero neg)
  else
    let va := a.value p
    let vb := b.value p
    let k := 2 * p.fracBits + 6
    let top := va.num * 2 ^ k
    .value ⟨neg, top / vb.num, va.exp - vb.exp - k, top % vb.num != 0⟩

/-- The integer square root by bits: the greatest `r` with `r * r ≤ n` that agrees with `acc` above bit `fuel`. -/
def isqrtBits (n : Nat) (fuel acc : Nat) : Nat :=
  match fuel with
  | 0 => acc
  | k + 1 => if (acc + 2 ^ k) * (acc + 2 ^ k) ≤ n then isqrtBits n k (acc + 2 ^ k) else isqrtBits n k acc

/-- The square root of a pattern that is not a NaN (43_ds_divide_sqrt.md R302). -/
def sqrtOutcome (p : Prec) (a : Fp) : Outcome :=
  if a.isZero p then .special a
  else if a.neg then .invalid
  else if a.isInf p then .special a
  else
    let v := a.value p
    -- scale to an even exponent and enough bits: num * 2^s with exp - s even
    let s : Nat := 2 * p.fracBits + 8 + (v.exp % 2).toNat
    let n := v.num * 2 ^ s
    let r := isqrtBits n (2 * p.fracBits + 8) 0
    .value ⟨false, r, (v.exp - s) / 2, r * r != n⟩

/-- The pattern of format `src` as a value of format `dst`, not a NaN (42_fmac_copy_compare_convert.md R275, R276). -/
def cvtOutcome (src dst : Prec) (a : Fp) : Outcome :=
  if a.isInf src then .special (fpInf dst a.neg)
  else if a.isZero src then .special (fpZero a.neg)
  else .value (a.value src)

/-- The integer `i` as a value (42_fmac_copy_compare_convert.md R271, R273). -/
def intOutcome (i : Int) : Outcome :=
  if i = 0 then .special (fpZero false) else .value ⟨decide (i < 0), i.natAbs, 0, false⟩

/-- A NaN with its top fraction bit set (40_cdp_common.md R206). -/
def quiet (p : Prec) (a : Fp) : Fp :=
  if a.frac < 2 ^ (p.fracBits - 1) then { a with frac := a.frac + 2 ^ (p.fracBits - 1) } else a

/-- The NaN an operation propagates with DN = 0: the first signaling one quieted, else the first quiet one
(40_cdp_common.md R206). PRESUMED: log entry 33. -/
def propagateNan (p : Prec) (ops : List Fp) : Fp :=
  match ops.find? (Fp.isSnan p) with
  | some a => quiet p a
  | none => (ops.find? (Fp.isNan p)).getD (defaultNan p)

/-- A NaN of format `src` moved to format `dst` with DN = 0: the sign kept, the fraction at the top, quieted
(40_cdp_common.md R206). -/
def convertNan (src dst : Prec) (a : Fp) : Fp :=
  quiet dst ⟨a.neg, dst.maxExp, a.frac * 2 ^ dst.fracBits / 2 ^ src.fracBits⟩

/-- The key by which patterns that are not NaN are ordered: their magnitude with its sign; zeros are equal
(42_fmac_copy_compare_convert.md R258). -/
def Fp.key (p : Prec) (f : Fp) : Int :=
  let m : Int := f.exp * 2 ^ p.fracBits + f.frac
  if f.neg then -m else m

/-- `compare_values`, and unordered if an operand is a NaN (42_fmac_copy_compare_convert.md R258). -/
def compareFp (p : Prec) (a b : Fp) : Ordering4 :=
  if a.isNan p || b.isNan p then .unordered
  else if a.key p < b.key p then .less
  else if a.key p = b.key p then .equal
  else .greater

/-- `hi` of a conversion to an integer (42_fmac_copy_compare_convert.md R280). -/
def intMax (signed : Bool) : Int := if signed then 2 ^ 31 - 1 else 2 ^ 32 - 1
/-- `lo` of a conversion to an integer (42_fmac_copy_compare_convert.md R280). -/
def intMin (signed : Bool) : Int := if signed then -(2 ^ 31) else 0

/-- `ftoi_result` (42_fmac_copy_compare_convert.md R280, Table 5-5). -/
def ftoiResult (p : Prec) (signed : Bool) (rm : Rounding) (a : Fp) : Word × Cumulative :=
  if a.isNan p then (0#32, { ioc := true })
  else if a.isInf p then (BitVec.ofInt 32 (if a.neg then intMin signed else intMax signed), { ioc := true })
  else
    let q := roundToGrid rm (a.value p) 0
    let r : Int := if a.neg then -(q.1 : Int) else q.1
    if intMax signed < r then (BitVec.ofInt 32 (intMax signed), { ioc := true })
    else if r < intMin signed then (BitVec.ofInt 32 (intMin signed), { ioc := true })
    else (BitVec.ofInt 32 r, { ixc := q.2 })

end Sys2Proof.Machine
end

