-- ==== Sys2Proof/Machine/State.lean ====
section
/-! DEFINITION. The state of the machine as plain data: everything the spec gives the coprocessor and everything it
names of the core's state (10_state.md R30 to R87), the reasons a step stops, and the state after reset. -/

namespace Sys2Proof.Machine

/-- The detection window (10_state.md R81): `open` holds the locked registers of the exceptional instruction, the
destinations `dst` and the sources `src` (bit `i` is register S`i`, 60_exceptions.md R423), and whether the
pretrigger slot is free. -/
inductive Window where
  | closed
  | opened (dst src : Word) (slot : Bool)
deriving DecidableEq, Repr

/-- The outcome of the Coprocessor Access Control Register (60_exceptions.md R452). -/
inductive CpAccess where
  | denied | privilegedOnly | full
deriving DecidableEq, Repr

/-- The two levels at which the spec describes the machine (00_scope.md R11): what the hardware alone does, and what
a program sees with correct support code installed. -/
inductive Level where
  | hardware | architecture
deriving DecidableEq, Repr

/-- The state of the machine. -/
structure State where
  /-- S0 to S31 (10_state.md R30). -/
  sreg : Vector Word 32
  /-- Which of S0 to S31 were written since reset (10_state.md R84). -/
  written : Vector Bool 32
  /-- FPSCR (10_state.md R54). -/
  fpscr : Word
  /-- FPEXC (10_state.md R65). -/
  fpexc : Word
  /-- FPINST (10_state.md R72). -/
  fpinst : Word
  /-- FPINST2 (10_state.md R73). -/
  fpinst2 : Word
  /-- FPINST2 holds a defined value (10_state.md R84). -/
  fpinst2Defined : Bool
  /-- The detection window (10_state.md R81). -/
  win : Window
  /-- R0 to R14 of the core (00_scope.md R21). -/
  arm : Vector Word 15
  /-- R15, the address of the next instruction (10_state.md R39). -/
  pc : Word
  /-- CPSR (00_scope.md R21). -/
  cpsr : Word
  /-- R14_und (60_exceptions.md R436). -/
  r14Und : Word
  /-- SPSR_und (60_exceptions.md R436). -/
  spsrUnd : Word
  /-- BIG_ENDIAN, the B bit of the CP15 c1 Control Register (20_memory.md R94). -/
  bigEndian : Bool
  /-- The core is configured for high vectors (60_exceptions.md R436). -/
  highVectors : Bool
  /-- CP_ACCESS (60_exceptions.md R452). -/
  cpAccess : CpAccess
  /-- Memory: address and byte, in the canonical form `Memory.wf` of Machine/Ops.lean (20_memory.md R90 to R92). -/
  mem : List Host.Cell
  /-- The address ranges, first to past-the-last, whose accesses the host's memory system aborts (R99, R104). -/
  aborts : List (Nat × Nat)
  /-- The word addresses instructions were fetched from (20_memory.md R111). -/
  fetched : List Nat
  /-- The word addresses a VFP store has written (20_memory.md R111). -/
  stored : List Nat
  /-- The model's own: the level a run describes (00_scope.md R11). -/
  level : Level
  /-- The model's own: how many free values the run has drawn (00_scope.md R14). -/
  draws : Nat
deriving DecidableEq, Repr

/-- The user traps of model level A (60_exceptions.md R446). -/
inductive TrapKind where
  | inputSubnormal | invalidOperation | divisionByZero | overflow | underflow | inexact
deriving DecidableEq, Repr

/-- The events at which the spec's description of a run ends. -/
inductive Fault where
  /-- Raised by the support code of level A: an enabled floating-point exception really occurred and the user trap
  handler is called, a terminal event (60_exceptions.md R446). It carries the state the handler finds. Safe. -/
  | userTrap (kind : TrapKind) (s : State)
  /-- Raised by a load or store one of whose words the memory system aborts; the core takes its Data Abort
  exception, whose entry the spec does not give (20_memory.md R104, R105; 60_exceptions.md R438). It carries the
  address and the state after the partial transfer, the instruction restarting at the same pc. Safe. -/
  | dataAbort (addr : Word) (s : State)
deriving DecidableEq, Repr

/-- Why the model gives a step no meaning. -/
inductive Refusal where
  /-- Raised by an arm of `exec` whose instruction has no meaning yet. Safe. -/
  | notModelled (mnemonic : String)
  /-- Raised by `step`: the word is not a VFP11 instruction; the core's instruction set is out of scope
  (00_scope.md R5, 30_encoding.md R142). Safe. -/
  | notVfp
  /-- Raised by every meaning: a statically Unpredictable form (30_encoding.md R141, 60_exceptions.md R435). Safe. -/
  | unpredictable (why : Unpredictable)
  /-- Raised by the CDP meanings: LEN and STRIDE have no legal meaning (40_cdp_common.md R168 (a)). Safe. -/
  | illegalLenStride
  /-- Raised by the CDP meanings: the vector wraps onto itself (40_cdp_common.md R168 (b)). Safe. -/
  | vectorWraps
  /-- Raised by the CDP meanings: overlapping source and destination vectors (40_cdp_common.md R169). Safe. -/
  | vectorOverlap
  /-- Raised by FMXR: a 1 in a Should-Be-Zero bit of FPSCR or FPEXC (10_state.md R53). Safe. -/
  | sbzWrite
  /-- Raised by the loads and stores: the address is not word aligned (20_memory.md R96). Safe. -/
  | misaligned
  /-- Raised by the loads and stores: the transfer runs past 0xFFFFFFFF (20_memory.md R98). Safe. -/
  | addressWrap
  /-- Raised by the stores: a word an instruction was fetched from (20_memory.md R111). Safe. -/
  | storeToCode
  /-- Raised by `step`: the instruction word was written by a VFP store (20_memory.md R111). Safe. -/
  | fetchOfStored
  /-- Raised by the support code of level A: FPINST or FPINST2 holds no instruction it can complete
  (60_exceptions.md R449). Safe. -/
  | supportCode
deriving DecidableEq, Repr

/-- What a step answers. -/
abbrev Result := Host.Outcome State Fault Refusal

/-- The state after reset (10_state.md R86). The values the spec does not state are named in log entries 1, 3, 4, 5,
7, 8, 9, 10, 12, 13 and 14. -/
def State.reset : State where
  sreg := Vector.replicate 32 0x00000000#32
  written := Vector.replicate 32 false
  fpscr := 0x00000000#32
  fpexc := 0x00000000#32
  fpinst := 0xEE000A00#32
  fpinst2 := 0x00000000#32
  fpinst2Defined := false
  win := .closed
  arm := Vector.replicate 15 0x00000000#32
  pc := 0x00000000#32
  cpsr := 0x000001D3#32
  r14Und := 0x00000000#32
  spsrUnd := 0x00000000#32
  bigEndian := false
  highVectors := false
  cpAccess := .denied
  mem := []
  aborts := []
  fetched := []
  stored := []
  level := .hardware
  draws := 0

end Sys2Proof.Machine
end

