-- ==== Sys2Proof/Machine/Arith.lean ====
section
/-! DEFINITION. One iteration of a CDP instruction: at level H the conditions on which the hardware bounces and what it
completes (40_cdp_common.md R185 to R202; 41_fmac_arith.md R221 to R224; 42_fmac_copy_compare_convert.md R251 to R281;
43_ds_divide_sqrt.md R301, R302), and at level A the result with support code (40_cdp_common.md R205, R206). -/

namespace Sys2Proof.Machine

/-- A CDP instruction: its operation, the precision its coprocessor number names and its register numbers; a field
the operation does not have is 0. -/
structure Cdp where
  op : CdpOp
  p : Prec
  d : BitVec 5
  n : BitVec 5
  m : BitVec 5
deriving DecidableEq, Repr

/-- The other format. -/
def Prec.other (p : Prec) : Prec :=
  match p with
  | .single => .double
  | .double => .single

/-- The precision of the Fd register (30_encoding.md R127). -/
def Cdp.dPrec (c : Cdp) : Prec :=
  match c.op with
  | .cvt => c.p.other
  | .toInt _ _ => .single
  | _ => c.p

/-- The precision of the Fm register (30_encoding.md R127). -/
def Cdp.mPrec (c : Cdp) : Prec :=
  match c.op with
  | .fromInt _ => .single
  | _ => c.p

/-- The operation reads Fn. -/
def CdpOp.readsN (o : CdpOp) : Bool :=
  match o with
  | .add _ | .mul _ | .mac _ _ | .div => true
  | _ => false

/-- The operation reads Fm. -/
def CdpOp.readsM (o : CdpOp) : Bool :=
  match o with
  | .cmpz _ => false
  | _ => true

/-- The operation reads Fd: the multiply-accumulate family and the compares. -/
def CdpOp.readsD (o : CdpOp) : Bool :=
  match o with
  | .mac _ _ | .cmp _ | .cmpz _ => true
  | _ => false

/-- The operation writes Fd: every one but a compare. -/
def CdpOp.writesD (o : CdpOp) : Bool :=
  match o with
  | .cmp _ | .cmpz _ => false
  | _ => true

/-- Not scalar-only (40_cdp_common.md R160, R162). -/
def CdpOp.canVector (o : CdpOp) : Bool :=
  match o with
  | .add _ | .mul _ | .mac _ _ | .div | .sqrt | .copy _ => true
  | _ => false

/-- FCPY, FABS and FNEG are not arithmetic (40_cdp_common.md R160). -/
def CdpOp.isCopy (o : CdpOp) : Bool :=
  match o with
  | .copy _ => true
  | _ => false

/-- What an iteration writes: a register, or FPSCR[31:28] (40_cdp_common.md R170). -/
inductive Effect where
  | reg (v : BitVec 64)
  | nzcv (b : BitVec 4)
deriving DecidableEq, Repr

/-! ### Bounce conditions (40_cdp_common.md R191, R202; 60_exceptions.md R416) -/

/-- The conditions that hold on an iteration: those on which it must bounce, those on which it may
(40_cdp_common.md R202), and whether an Input exception may set FPEXC.IOC besides (60_exceptions.md R416 (b)). All that
hold contribute their flags, for the compares, FCVTSD and the float-to-integer conversions too (40_cdp_common.md R191,
60_exceptions.md R412, R416, decision D15), whose own rules return at the first one; 10_state.md R70 leaves the flags of
every bounce to R416: DEDUCED, log entry 17. -/
structure Check where
  ixe : Bool := false
  input : Bool := false
  inSub : Bool := false
  invalid : Bool := false
  divz : Bool := false
  ovf : Bool := false
  unf : Bool := false
  mayOver : Bool := false
  mayUnder : Bool := false
  optIoc : Bool := false
deriving DecidableEq, Repr

/-- Some condition makes the iteration bounce for certain. -/
def Check.must (c : Check) : Bool :=
  c.ixe || c.input || c.inSub || c.invalid || c.divz || c.ovf || c.unf

/-- No condition holds, not even one that may be recognised: the iteration completes in hardware. -/
def Check.clear (c : Check) : Bool := !c.must && !c.mayOver && !c.mayUnder

/-- The thresholds of a stage: certain when its operands are normal, else possible (40_cdp_common.md R202), and optional
where the iteration already bounces as an Input exception (60_exceptions.md R416 (c)). -/
def Check.threshold (c : Check) (certain ovf unf : Bool) : Check :=
  let certain := certain && !c.input
  { c with
    ovf := c.ovf || (certain && ovf)
    unf := c.unf || (certain && unf)
    mayOver := c.mayOver || (!certain && ovf)
    mayUnder := c.mayUnder || (!certain && unf) }

/-- An invalid or potentially invalid operation with IOE = 1 (40_cdp_common.md R194): certain, and optional where the
iteration already bounces as an Input exception (60_exceptions.md R416 (b)). -/
def Check.addInvalid (c : Check) (b : Bool) : Check :=
  { c with
    invalid := c.invalid || (b && !c.input)
    optIoc := c.optIoc || (b && c.input) }

/-- The thresholds are evaluated: no operand is a NaN (41_fmac_arith.md R221), or the iteration is an Input exception, whose
threshold flags are optional whatever operand makes it one (60_exceptions.md R416 (c)); 40_cdp_common.md R202 (b) is set
aside for a NaN with DN = 1. DEDUCED: log entry 38. -/
def thresholdsApply (c : Check) (nan : Bool) : Bool := !nan || c.input

/-- Some operand is a NaN. -/
def anyNan (p : Prec) (ops : List Fp) : Bool := ops.any (Fp.isNan p)
/-- Some operand is a signaling NaN. -/
def anySnan (p : Prec) (ops : List Fp) : Bool := ops.any (Fp.isSnan p)
/-- Some operand is subnormal. -/
def anySub (p : Prec) (ops : List Fp) : Bool := ops.any (Fp.isSub p)

/-- The conditions on the source operands alone (40_cdp_common.md R185, R188, R192, R193). -/
def sourceCheck (p : Prec) (w : Word) (ops : List Fp) : Check where
  ixe := Fpscr.ixe w
  input := (!Fpscr.dn w && anyNan p ops) || (!Fpscr.fz w && anySub p ops)
  inSub := Fpscr.fz w && Fpscr.ide w && anySub p ops
  invalid := Fpscr.dn w && Fpscr.ioe w && anySnan p ops
  optIoc := !Fpscr.dn w && Fpscr.ioe w && anySnan p ops

/-- The operand after the input flush of the hardware: a subnormal one is +0 when FZ = 1 and IDE = 0
(40_cdp_common.md R185). -/
def flushH (p : Prec) (w : Word) (a : Fp) : Fp :=
  if Fpscr.fz w && !Fpscr.ide w && a.isSub p then fpZero false else a

/-- The operand after the input flush of level A (40_cdp_common.md R205 step 1). -/
def flushA (p : Prec) (w : Word) (a : Fp) : Fp := if Fpscr.fz w && a.isSub p then fpZero false else a

/-- The flag of the input flush of the hardware (40_cdp_common.md R185). -/
def flushFlag (p : Prec) (w : Word) (ops : List Fp) : Cumulative :=
  { idc := Fpscr.fz w && !Fpscr.ide w && anySub p ops }

/-- The overflow threshold 0xFD or 0x7FD with OFE = 1 (40_cdp_common.md R197 to R199). -/
def potOver (p : Prec) (w : Word) (e : Int) : Bool := Fpscr.ofe w && decide ((p.maxExp : Int) - 2 ≤ e)

/-- The underflow threshold of an unlike-signed addition: 0x1F or 0x03F (40_cdp_common.md R197). -/
def Prec.usaThreshold (p : Prec) : Int :=
  match p with
  | .single => 0x1F
  | .double => 0x03F

/-- `pot_underflow_add`; `usa` is an unlike-signed addition (40_cdp_common.md R196, R197). -/
def potUnderAdd (p : Prec) (w : Word) (usa : Bool) (e : Int) : Bool :=
  !Fpscr.fz w && (decide (e ≤ 0) || (usa && decide (e ≤ p.usaThreshold)))

/-- `pot_underflow_mul` (40_cdp_common.md R198). -/
def potUnderMul (w : Word) (e : Int) : Bool := !Fpscr.fz w && decide (e ≤ 0)

/-- `pot_underflow_div` (40_cdp_common.md R199). -/
def potUnderDiv (w : Word) (e : Int) : Bool := !Fpscr.fz w && decide (e ≤ 1)

/-- The result of a completing iteration with a floating-point result: NaN operands first, DN being 1 then
(40_cdp_common.md R188, R189, R191). -/
def completeH (p : Prec) (w : Word) (ops : List Fp) (o : Outcome) : Rounded :=
  if anyNan p ops then { val := defaultNan p, flags := { ioc := anySnan p ops } }
  else finish p (Fpscr.fz w) (Fpscr.rmode w) o

/-- The completed result as an effect and its flags. -/
def asEffect (p : Prec) (fl : Cumulative) (r : Rounded) : Effect × Cumulative :=
  (.reg (pack p r.val), fl.or r.flags)

/-- FNMUL: the sign of the rounded product inverted, but for the default NaN and a flushed product
(41_fmac_arith.md R222, R223). The intermediate result of a trapped overflow or underflow has its sign inverted too,
which R226 leaves open: DESIGN CHOICE, log entry 43. -/
def Rounded.negate (r : Rounded) (b fz : Bool) : Rounded :=
  if b && !r.flags.ioc && !(fz && r.flags.ufc) then { r with val := r.val.flip true, inter := r.inter.flip true }
  else r

/-- FADD and FSUB at level H (41_fmac_arith.md R221). -/
def addH (p : Prec) (w : Word) (sub : Bool) (n m : Fp) : Check × Effect × Cumulative :=
  let a := flushH p w n
  let b := flushH p w m
  let b' := b.flip sub
  let e : Int := max a.exp b.exp
  let usa := a.neg != b'.neg
  let chk := (sourceCheck p w [n, m]).addInvalid (Fpscr.ioe w && a.isInf p && b.isInf p && usa)
  let apply := thresholdsApply chk (anyNan p [a, b])
  (chk.threshold (a.isNormal p && b.isNormal p) (apply && potOver p w e) (apply && potUnderAdd p w usa e),
    asEffect p (flushFlag p w [n, m]) (completeH p w [a, b] (addOutcome p (Fpscr.rmode w) a b')))

/-- FMUL and FNMUL at level H (41_fmac_arith.md R222). -/
def mulH (p : Prec) (w : Word) (neg : Bool) (n m : Fp) : Check × Effect × Cumulative :=
  let a := flushH p w n
  let b := flushH p w m
  let e : Int := (a.exp : Int) + b.exp - p.bias
  let chk := (sourceCheck p w [n, m]).addInvalid
    (Fpscr.ioe w && ((a.isZero p && b.isInf p) || (a.isInf p && b.isZero p)))
  let r := completeH p w [a, b] (mulOutcome p a b)
  let apply := thresholdsApply chk (anyNan p [a, b])
  (chk.threshold (a.isNormal p && b.isNormal p) (apply && potOver p w e) (apply && potUnderMul w e),
    asEffect p (flushFlag p w [n, m]) (if anyNan p [a, b] then r else r.negate neg (Fpscr.fz w)))

/-- FDIV at level H (43_ds_divide_sqrt.md R301). -/
def divH (p : Prec) (w : Word) (n m : Fp) : Check × Effect × Cumulative :=
  let a := flushH p w n
  let b := flushH p w m
  let e : Int := (a.exp : Int) - b.exp + p.bias
  let chk := (sourceCheck p w [n, m]).addInvalid
    (Fpscr.ioe w && ((a.isZero p && b.isZero p) || (a.isInf p && b.isInf p)))
  let chk := { chk with divz := Fpscr.dze w && b.isZero p && a.isNormal p }
  let apply := thresholdsApply chk (anyNan p [a, b])
  (chk.threshold (a.isNormal p && b.isNormal p) (apply && potOver p w e) (apply && potUnderDiv w e),
    asEffect p (flushFlag p w [n, m]) (completeH p w [a, b] (divOutcome p a b)))

/-- FSQRT at level H (43_ds_divide_sqrt.md R302); a negative subnormal with FZ = 0 is invalid as it stands. -/
def sqrtH (p : Prec) (w : Word) (m : Fp) : Check × Effect × Cumulative :=
  let a := flushH p w m
  let chk := (sourceCheck p w [m]).addInvalid
    (Fpscr.ioe w && a.neg && (a.isNormal p || a.isInf p || (!Fpscr.fz w && a.isSub p)))
  (chk, asEffect p (flushFlag p w [m]) (completeH p w [a] (sqrtOutcome p a)))

/-- FMAC, FNMAC, FMSC, FNMSC at level H (41_fmac_arith.md R224, 40_cdp_common.md R201). The second stage is tested for
the product of a zero and an infinity too, a MAY condition by R201 and R202 (b), where R224 does not test it: DEDUCED,
log entry 38. -/
def macH (p : Prec) (w : Word) (negP negA : Bool) (d n m : Fp) : Check × Effect × Cumulative :=
  let c := flushH p w d
  let a := flushH p w n
  let b := flushH p w m
  let fz := Fpscr.fz w
  let rm := Fpscr.rmode w
  let noNan := !anyNan p [c, a, b]
  let e1 : Int := (a.exp : Int) + b.exp - p.bias
  let temp := completeH p w [a, b] (mulOutcome p a b)
  let a' := c.flip negA
  let p' := temp.val.flip negP
  let tempNan := temp.val.isNan p
  let usa := a'.neg != p'.neg
  let potential := c.isInf p && decide ((p.maxExp : Int) - 2 ≤ e1) && a'.neg != ((a.neg != b.neg) != negP)
  let chk := (sourceCheck p w [d, n, m]).addInvalid (Fpscr.ioe w &&
    ((a.isZero p && b.isInf p) || (a.isInf p && b.isZero p) ||
      (noNan && !tempNan && ((c.isInf p && temp.val.isInf p && usa) || potential))))
  let apply := thresholdsApply chk (!noNan)
  let chk := chk.threshold (a.isNormal p && b.isNormal p && noNan) (apply && potOver p w e1) (apply && potUnderMul w e1)
  -- stage 2, on both candidates for the exponent of the product (R201)
  let e2 : Int := max c.exp e1
  let e3 : Int := if tempNan || temp.val.isZero p || temp.val.isInf p then e2 else max c.exp temp.val.exp
  let certain := c.isNormal p && temp.val.isNormal p && noNan
  let chk := chk.threshold certain (apply && potOver p w e2 && potOver p w e3)
    (apply && potUnderAdd p w usa e2 && potUnderAdd p w usa e3)
  let chk := chk.threshold false (apply && (potOver p w e2 || potOver p w e3) && !chk.ovf)
    (apply && (potUnderAdd p w usa e2 || potUnderAdd p w usa e3) && !chk.unf)
  let fl := flushFlag p w [d, n, m]
  let r :=
    if !noNan then completeH p w [c, a, b] .invalid
    else if tempNan then { val := defaultNan p, flags := temp.flags }
    else
      let sum := finish p fz rm (addOutcome p rm a' p')
      { sum with flags := temp.flags.or sum.flags }
  (chk, asEffect p fl r)

/-- FCVTSD and FCVTDS at level H, from format `p` to the other (42_fmac_copy_compare_convert.md R275, R276); the
thresholds are those of Table 5-11 and concern FCVTSD only. -/
def cvtH (p : Prec) (w : Word) (m : Fp) : Check × Effect × Cumulative :=
  let a := flushH p w m
  let q := p.other
  let chk := sourceCheck p w [m]
  let apply := p == .double && thresholdsApply chk (a.isNan p)
  let chk := chk.threshold (a.isNormal p)
    (apply && Fpscr.ofe w && decide (0x47D ≤ a.exp)) (apply && !Fpscr.fz w && decide (a.exp ≤ 0x380))
  let r :=
    if a.isNan p then { val := defaultNan q, flags := { ioc := a.isSnan p } }
    else finish q (Fpscr.fz w) (Fpscr.rmode w) (cvtOutcome p q a)
  (chk, asEffect q (flushFlag p w [m]) r)

/-- The integer in a register, signed or not (10_state.md R33). -/
def asInt (signed : Bool) (v : Word) : Int := if signed then v.toInt else (v.toNat : Int)

/-- FUITO and FSITO at level H (42_fmac_copy_compare_convert.md R271 to R274). -/
def fromIntH (p : Prec) (w : Word) (signed : Bool) (v : Word) : Check × Effect × Cumulative :=
  ({ ixe := Fpscr.ixe w },
    asEffect p {} (finish p (Fpscr.fz w) (Fpscr.rmode w) (intOutcome (asInt signed v))))

/-- `rm_eff` (42_fmac_copy_compare_convert.md R279). -/
def roundingOf (w : Word) (towardsZero : Bool) : Rounding := if towardsZero then .zero else Fpscr.rmode w

/-- `ftoi_pot_invalid`, Tables 5-12 and 5-13 (42_fmac_copy_compare_convert.md R281). -/
def ftoiPotInvalid (p : Prec) (signed : Bool) (rm : Rounding) (a : Fp) : Bool :=
  let b31 : Int := p.bias + 31
  let e : Int := a.exp
  let top31 := a.frac / 2 ^ (p.fracBits - min 31 p.fracBits)
  if a.isNan p || a.isInf p then true
  else if b31 + 1 ≤ e then true
  else if !a.neg then
    if e = b31 then signed || rm != .zero
    else if e = b31 - 1 then signed && rm != .zero
    else false
  else if e ≤ b31 - 1 then !signed
  else if top31 = 0 then !signed || rm != .zero
  else true

/-- The float-to-integer conversions at level H (42_fmac_copy_compare_convert.md R279 to R281); with FZ = 1 a subnormal
is tested as the +0 it counts as, whatever IDE is, so that an Input Subnormal bounce has no flag but EX
(60_exceptions.md R404). -/
def toIntH (p : Prec) (w : Word) (signed towardsZero : Bool) (m : Fp) : Check × Effect × Cumulative :=
  let a := flushH p w m
  let rm := roundingOf w towardsZero
  let chk := (sourceCheck p w [m]).addInvalid (Fpscr.ioe w && ftoiPotInvalid p signed rm (flushA p w m))
  let r := ftoiResult p signed rm a
  (chk, .reg (r.1.setWidth 64), (flushFlag p w [m]).or r.2)

/-- The compares at level H (42_fmac_copy_compare_convert.md R258). -/
def cmpH (p : Prec) (w : Word) (e : Bool) (d m : Fp) : Check × Effect × Cumulative :=
  let ops := [d, m]
  let flushes := Fpscr.fz w && anySub p ops && Config.fcmpFzFlush
  let flushed (a : Fp) : Fp := if flushes && !Fpscr.ide w && a.isSub p then fpZero false else a
  let invalid := anySnan p ops || (e && anyNan p ops)
  let chk := { sourceCheck p w ops with inSub := flushes && Fpscr.ide w }
  (chk.addInvalid (Fpscr.ioe w && e && anyNan p ops), .nzcv (compareFp p (flushed d) (flushed m)).nzcv,
    { idc := flushes && !Fpscr.ide w, ioc := invalid })

/-- FCPY, FABS, FNEG: bits only (42_fmac_copy_compare_convert.md R251 to R256). -/
def copyBits (p : Prec) (k : CopyKind) (v : BitVec 64) : BitVec 64 :=
  let top : BitVec 64 :=
    match p with
    | .single => 0x80000000#64
    | .double => 0x8000000000000000#64
  match k with
  | .copy => v
  | .abs => v &&& ~~~top
  | .neg => v ^^^ top

/-- FCPY, FABS, FNEG at level H: no condition but that of IXE_BOUNCES_COPY (40_cdp_common.md R192). -/
def copyH (p : Prec) (w : Word) (k : CopyKind) (v : BitVec 64) : Check × Effect × Cumulative :=
  ({ ixe := Fpscr.ixe w && Config.ixeBouncesCopy }, .reg (copyBits p k v), {})

/-- The patterns an iteration reads: of Fd, Fn and Fm; an integer is in the lower 32 bits. -/
structure Source where
  d : BitVec 64
  n : BitVec 64
  m : BitVec 64
deriving DecidableEq, Repr

/-- The second operand of a compare with zero: +0 (42_fmac_copy_compare_convert.md R257). -/
def plusZero : Fp := fpZero false

/-- One iteration at level H under FPSCR `w` (40_cdp_common.md R170, R191). -/
def iterH (o : CdpOp) (p : Prec) (w : Word) (x : Source) : Check × Effect × Cumulative :=
  match o with
  | .add sub => addH p w sub (unpack p x.n) (unpack p x.m)
  | .mul neg => mulH p w neg (unpack p x.n) (unpack p x.m)
  | .mac negP negA => macH p w negP negA (unpack p x.d) (unpack p x.n) (unpack p x.m)
  | .div => divH p w (unpack p x.n) (unpack p x.m)
  | .sqrt => sqrtH p w (unpack p x.m)
  | .copy k => copyH p w k x.m
  | .cmp e => cmpH p w e (unpack p x.d) (unpack p x.m)
  | .cmpz e => cmpH p w e (unpack p x.d) plusZero
  | .cvt => cvtH p w (unpack p x.m)
  | .fromInt signed => fromIntH p w signed (x.m.setWidth 32)
  | .toInt signed towardsZero => toIntH p w signed towardsZero (unpack p x.m)

/-! ### Level A (40_cdp_common.md R205) -/

/-- An iteration at level A: done, or the call of a user trap handler with what was written before it
(40_cdp_common.md R205, 60_exceptions.md R446). -/
inductive ArchResult where
  | done (e : Effect) (fl : Cumulative)
  | trap (k : TrapKind) (written : Option (BitVec 64)) (fl : Cumulative)
deriving DecidableEq, Repr

/-- The trap of step 1, if IDE is set, else what follows with the flag of the flush (40_cdp_common.md R205). -/
def flushStepA (p : Prec) (w : Word) (ops : List Fp) (go : Cumulative → ArchResult) : ArchResult :=
  let flushes := Fpscr.fz w && anySub p ops
  if flushes && Fpscr.ide w then .trap .inputSubnormal none { idc := true } else go { idc := flushes }

/-- The trap of an invalid operation, if IOE is set, else what follows (40_cdp_common.md R205 steps 2 and 3). The flags
`fl` raised before the trap are in FPSCR with it: DESIGN CHOICE, log entry 41. -/
def invalidStepA (w : Word) (invalid : Bool) (fl : Cumulative) (go : ArchResult) : ArchResult :=
  if invalid && Fpscr.ioe w then .trap .invalidOperation none (fl.or { ioc := true }) else go

/-- Steps 6 and 7 on a rounded result: the enabled overflow and underflow traps, then the inexact trap; `inter` is what
a trapped overflow or underflow leaves in the destination (40_cdp_common.md R205). An enabled overflow traps with
FZ = 1 too (60_exceptions.md R407, R444, R445, decision D27), where step 6 gives the rounded result (DEDUCED: log entry
37). A trapped inexact result leaves the destination unchanged (60_exceptions.md R446), where step 7 writes it (DEDUCED:
log entry 44). The flags `fl` raised before the trap are in FPSCR with it (DESIGN CHOICE: log entry 41). -/
def roundStepA (p : Prec) (w : Word) (fl : Cumulative) (r : Rounded) (inter : BitVec 64) : ArchResult :=
  if r.flags.ofc && Fpscr.ofe w then .trap .overflow (some inter) (fl.or { ofc := true })
  else if r.tiny && Fpscr.ufe w then .trap .underflow (some inter) (fl.or { ufc := true })
  else if r.flags.ixc && Fpscr.ixe w then .trap .inexact none (fl.or r.flags)
  else .done (.reg (pack p r.val)) (fl.or r.flags)

/-- Steps 3 to 7 on an outcome without NaN operands; `post` is what the instruction does to the rounded result
(40_cdp_common.md R205). -/
def outcomeStepA (p : Prec) (w : Word) (fl : Cumulative) (o : Outcome) (post : Rounded → Rounded) : ArchResult :=
  let r := post (finish p (Fpscr.fz w) (Fpscr.rmode w) o)
  match o with
  | .invalid => invalidStepA w true fl (.done (.reg (pack p r.val)) (fl.or r.flags))
  | .divideByZero _ =>
    if Fpscr.dze w then .trap .divisionByZero none (fl.or { dzc := true })
    else .done (.reg (pack p r.val)) (fl.or r.flags)
  | .special _ => .done (.reg (pack p r.val)) (fl.or r.flags)
  | .value _ => roundStepA p w fl r (pack p r.inter)

/-- Step 2: a NaN operand gives the default NaN with DN = 1 and the propagated one with DN = 0
(40_cdp_common.md R205, R206). -/
def nanStepA (p q : Prec) (w : Word) (ops : List Fp) (nan : Fp) (fl : Cumulative) (go : ArchResult) : ArchResult :=
  if anyNan p ops then
    invalidStepA w (anySnan p ops) fl
      (.done (.reg (pack q (if Fpscr.dn w then defaultNan q else nan))) (fl.or { ioc := anySnan p ops }))
  else go

/-- The NaN the support code delivers with DN = 0 in format `q` for the operation `o` under the control bits of FPSCR `w`:
`rule`, the one of R206, unless an operand of the instruction, of those in `key` of format `p`, is a NaN and SUPPORT_CODE
selects another quiet NaN for them (40_cdp_common.md R206; log entry 30). -/
def supportNan (o : CdpOp) (p q : Prec) (w : Word) (key : List Fp) (rule : Fp) : Fp :=
  match Config.supportNan o (w &&& Fpscr.controlMask) (1 + q.expBits + q.fracBits) (key.map (pack p)) with
  | none => rule
  | some v => if anyNan p key && (unpack q v).isNan q then quiet q (unpack q v) else rule

/-- An iteration of one format at level A: flush, NaN, then the outcome `f` (40_cdp_common.md R205); `o` and `key` are the
operation and the operands of the whole instruction. -/
def arithA (o : CdpOp) (p : Prec) (w : Word) (key ops : List Fp) (f : List Fp → Outcome) (post : Rounded → Rounded) :
    ArchResult :=
  flushStepA p w ops (fun fl =>
    let fs := ops.map (flushA p w)
    nanStepA p p w fs (supportNan o p p w key (propagateNan p fs)) fl (outcomeStepA p w fl (f fs) post))

/-- A two-operand outcome on a list. -/
def binary (f : Fp → Fp → Outcome) (ops : List Fp) : Outcome :=
  match ops with
  | [a, b] => f a b
  | _ => .invalid

/-- A sign flip that leaves a NaN alone (40_cdp_common.md R206). -/
def flipNumber (p : Prec) (b : Bool) (a : Fp) : Fp := if a.isNan p then a else a.flip b

/-- The flags of an earlier stage added to a result. -/
def ArchResult.addFlags (r : ArchResult) (f : Cumulative) : ArchResult :=
  match r with
  | .done e g => .done e (f.or g)
  | .trap k written g => .trap k written (f.or g)

/-- The second stage at level A: the sum of A' and P', where A' is the value of Fd after the input flush
(41_fmac_arith.md R224, R226); `key` are the operands of the instruction. -/
def macSumA (p : Prec) (w : Word) (key : List Fp) (negP negA : Bool) (d prod : Fp) : ArchResult :=
  flushStepA p w [d] (fun fl =>
    (arithA (.mac negP negA) p w key [flipNumber p negA (flushA p w d), flipNumber p negP prod]
      (binary (addOutcome p (Fpscr.rmode w))) id).addFlags fl)

/-- The multiply-accumulate family at level A: two iterations, the second only if the first takes no trap
(41_fmac_arith.md R226). A NaN operand with DN = 1 that the hardware does not bounce has the result of the hardware
(40_cdp_common.md R205, R208; 60_exceptions.md R432 (e)), where R226 has two iterations: DEDUCED, log entry 31. A
trapped overflow or underflow of the product leaves in Fd what an FMUL would: DEDUCED, log entry 31. -/
def macA (p : Prec) (w : Word) (negP negA : Bool) (d n m : Fp) : ArchResult :=
  let key := [d, n, m]
  let hw := macH p w negP negA d n m
  if Fpscr.dn w && anyNan p key && !hw.1.must then .done hw.2.1 hw.2.2
  else
    match arithA (.mac negP negA) p w key [n, m] (binary (mulOutcome p)) id with
    | .done (.reg v) f1 => (macSumA p w key negP negA d (unpack p v)).addFlags f1
    | r => r

/-- FCVTSD and FCVTDS at level A (42_fmac_copy_compare_convert.md R275, R276); a trapped intermediate result that does
not fit the destination is a free value (log entry 34). -/
def cvtA (p : Prec) (w : Word) (x : BitVec 64) : ArchResult :=
  let m := unpack p x
  let q := p.other
  flushStepA p w [m] (fun fl =>
    let a := flushA p w m
    nanStepA p q w [a] (supportNan .cvt p q w [m] (convertNan p q a)) fl
      (let r := finish q (Fpscr.fz w) (Fpscr.rmode w) (cvtOutcome p q a)
      let fits := decide (1 ≤ r.inter.exp) && decide (r.inter.exp < q.maxExp)
      roundStepA q w fl r (if fits then pack q r.inter else (Config.cvtTrapResult x).setWidth 64)))

/-- The float-to-integer conversions at level A (40_cdp_common.md R205, 42_fmac_copy_compare_convert.md R280); an Inexact
trap leaves the destination unchanged (60_exceptions.md R446; log entry 44). -/
def toIntA (p : Prec) (w : Word) (signed towardsZero : Bool) (m : Fp) : ArchResult :=
  flushStepA p w [m] (fun fl =>
    let r := ftoiResult p signed (roundingOf w towardsZero) (flushA p w m)
    invalidStepA w r.2.ioc fl
      (if r.2.ixc && Fpscr.ixe w then .trap .inexact none (fl.or r.2)
      else .done (.reg (r.1.setWidth 64)) (fl.or r.2)))

/-- The compares at level A (42_fmac_copy_compare_convert.md R258). -/
def cmpA (p : Prec) (w : Word) (e : Bool) (d m : Fp) : ArchResult :=
  let ops := [d, m]
  let flushes := Fpscr.fz w && anySub p ops && Config.fcmpFzFlush
  let flushed (a : Fp) : Fp := if flushes && a.isSub p then fpZero false else a
  let invalid := anySnan p ops || (e && anyNan p ops)
  if flushes && Fpscr.ide w then .trap .inputSubnormal none { idc := true }
  else
    invalidStepA w invalid { idc := flushes }
      (.done (.nzcv (compareFp p (flushed d) (flushed m)).nzcv) { idc := flushes, ioc := invalid })

/-- FUITO and FSITO at level A (40_cdp_common.md R205). -/
def fromIntA (p : Prec) (w : Word) (signed : Bool) (v : Word) : ArchResult :=
  outcomeStepA p w {} (intOutcome (asInt signed v)) id

/-- `arch_iteration` under FPSCR `w` (40_cdp_common.md R205). -/
def iterA (o : CdpOp) (p : Prec) (w : Word) (x : Source) : ArchResult :=
  match o with
  | .add sub => arithA o p w [unpack p x.n, unpack p x.m] [unpack p x.n, unpack p x.m]
      (binary (fun a b => addOutcome p (Fpscr.rmode w) a (b.flip sub))) id
  | .mul neg => arithA o p w [unpack p x.n, unpack p x.m] [unpack p x.n, unpack p x.m] (binary (mulOutcome p))
      (fun r => r.negate neg (Fpscr.fz w))
  | .mac negP negA => macA p w negP negA (unpack p x.d) (unpack p x.n) (unpack p x.m)
  | .div => arithA o p w [unpack p x.n, unpack p x.m] [unpack p x.n, unpack p x.m] (binary (divOutcome p)) id
  | .sqrt => arithA o p w [unpack p x.m] [unpack p x.m]
      (fun ops => match ops with | [a] => sqrtOutcome p a | _ => .invalid) id
  | .copy k => .done (.reg (copyBits p k x.m)) {}
  | .cmp e => cmpA p w e (unpack p x.d) (unpack p x.m)
  | .cmpz e => cmpA p w e (unpack p x.d) plusZero
  | .cvt => cvtA p w x.m
  | .fromInt signed => fromIntA p w signed (x.m.setWidth 32)
  | .toInt signed towardsZero => toIntA p w signed towardsZero (unpack p x.m)

end Sys2Proof.Machine
end

