-- ==== Sys2Proof/Machine/Ops.lean ====
section
/-! DEFINITION. The named operations over the registers and memory, the free values, taking the Undefined
Instruction exception and returning from it (00_scope.md R14, R22; 20_memory.md R91 to R111; 60_exceptions.md R428,
R436, R437). -/

namespace Sys2Proof.Machine

/-! ### Registers -/

/-- S`r` (10_state.md R30). -/
def State.readS (s : State) (r : BitVec 5) : Word := s.sreg[r.toNat]'r.isLt

/-- S`r` written, and marked written (10_state.md R30, R84). -/
def State.writeS (s : State) (r : BitVec 5) (v : Word) : State :=
  { s with sreg := s.sreg.set r.toNat v r.isLt, written := s.written.set r.toNat true r.isLt }

/-- S`r` has been written since reset (10_state.md R84). -/
def State.isWritten (s : State) (r : BitVec 5) : Bool := s.written[r.toNat]'r.isLt

/-- ARM register `n`; R15 reads as the address of the instruction plus 8 (44_ls_memory.md R312).
PRESUMED: log entry 25. -/
def State.readArm (s : State) (n : BitVec 4) : Word :=
  if h : n.toNat < 15 then s.arm[n.toNat] else s.pc + 8#32

/-- ARM register `n` written, for R0 to R14; no meaning writes R15 (45_ls_register_transfer.md R342). -/
def State.writeArm (s : State) (n : BitVec 4) (v : Word) : State :=
  if h : n.toNat < 15 then { s with arm := s.arm.set n.toNat v h } else s

/-- FPSCR replaced. -/
def State.setFpscr (s : State) (v : Word) : State := { s with fpscr := v }

/-- Cumulative flags OR-ed into FPSCR (10_state.md R62). -/
def State.raise (s : State) (f : Cumulative) : State := s.setFpscr (Fpscr.raise s.fpscr f)

/-- FPEXC replaced. -/
def State.setFpexc (s : State) (v : Word) : State := { s with fpexc := v }

/-- FPINST replaced. -/
def State.setFpinst (s : State) (v : Word) : State := { s with fpinst := v }

/-- FPINST2 replaced; it is defined from then on (10_state.md R73). -/
def State.setFpinst2 (s : State) (v : Word) : State := { s with fpinst2 := v, fpinst2Defined := true }

/-- FPINST2 marked defined or not (10_state.md R73). -/
def State.setFpinst2Defined (s : State) (b : Bool) : State := { s with fpinst2Defined := b }

/-- The detection window replaced (10_state.md R81). -/
def State.setWin (s : State) (w : Window) : State := { s with win := w }

/-- The window closed (60_exceptions.md R427, R428). -/
def State.closeWin (s : State) : State := s.setWin .closed

/-- CPSR replaced. -/
def State.setCpsr (s : State) (v : Word) : State := { s with cpsr := v }

/-- The program counter replaced. -/
def State.setPc (s : State) (v : Word) : State := { s with pc := v }

/-- The program counter past the instruction (00_scope.md R16). -/
def State.advance (s : State) : State := s.setPc (s.pc + 4#32)

/-! ### Free values (00_scope.md R14; log entry 14) -/

/-- A free Boolean. -/
def State.draw (s : State) : Bool × State := (Config.freeBool s.draws, { s with draws := s.draws + 1 })

/-- A free word. -/
def State.drawWord (s : State) : Word × State := (Config.freeWord s.draws, { s with draws := s.draws + 1 })

/-- A free Boolean if `b`, else false with nothing drawn. -/
def State.drawIf (s : State) (b : Bool) : Bool × State := if b then s.draw else (false, s)

/-! ### Memory (20_memory.md R90 to R92) -/

/-- What a byte nothing has written reads as. DESIGN CHOICE, unsafe: log entry 9. -/
def Memory.unlisted : Byte := 0x00#8

/-- The byte at address `a`. -/
def Memory.read (m : List Host.Cell) (a : Nat) : Byte :=
  match m with
  | [] => Memory.unlisted
  | c :: rest => if c.1 = a then c.2 else Memory.read rest a

/-- A cell inserted at its place among rising addresses. -/
def Memory.insert (m : List Host.Cell) (a : Nat) (b : Byte) : List Host.Cell :=
  match m with
  | [] => [(a, b)]
  | c :: rest => if a < c.1 then (a, b) :: c :: rest else c :: Memory.insert rest a b

/-- The byte at address `a` written, in canonical form: no cell holds what an unlisted byte reads as. -/
def Memory.write (m : List Host.Cell) (a : Nat) (b : Byte) : List Host.Cell :=
  let rest := m.filter (fun c => c.1 != a)
  if b = Memory.unlisted then rest else Memory.insert rest a b

/-- The canonical form: addresses strictly rising, no cell that equals an unlisted byte. -/
abbrev Memory.wf (m : List Host.Cell) : Prop :=
  m.Pairwise (fun c d => c.1 < d.1) ∧ ∀ c ∈ m, c.2 ≠ Memory.unlisted

/-- The byte of memory at an address. -/
def State.readByte (s : State) (a : Nat) : Byte := Memory.read s.mem a

/-- `MemRead(addr, 4)`: the word at a word address, its least significant byte at the lowest address in memory
(20_memory.md R91, R92). -/
def State.readWord (s : State) (a : Nat) : Word :=
  wordOfBytes (s.readByte a) (s.readByte (a + 1)) (s.readByte (a + 2)) (s.readByte (a + 3))

/-- The four bytes of a word written, the least significant at the lowest address (20_memory.md R91, R92). -/
def Memory.writeWord (m : List Host.Cell) (a : Nat) (w : Word) : List Host.Cell :=
  Memory.write (Memory.write (Memory.write (Memory.write m a (byteOfWord w 0)) (a + 1) (byteOfWord w 1)) (a + 2)
    (byteOfWord w 2)) (a + 3) (byteOfWord w 3)

/-- A word placed in memory without a note of it: what the host does when it loads a program. -/
def State.placeWord (s : State) (a : Nat) (w : Word) : State := { s with mem := Memory.writeWord s.mem a w }

/-- `MemWrite(addr, 4, v)` (20_memory.md R91, R92), with a note that a VFP store wrote the word (R111). -/
def State.writeWord (s : State) (a : Nat) (w : Word) : State :=
  { s with
    mem := Memory.writeWord s.mem a w
    stored := if s.stored.contains a then s.stored else a :: s.stored }

/-- The memory system aborts an access to the word at `a` (20_memory.md R99, R104). -/
def State.abortsAt (s : State) (a : Nat) : Bool :=
  s.aborts.any (fun r => decide (r.1 < a + 4) && decide (a < r.2))

/-- A note that an instruction was fetched from the word at `a` (20_memory.md R111). -/
def State.noteFetch (s : State) (a : Nat) : State :=
  { s with fetched := if s.fetched.contains a then s.fetched else a :: s.fetched }

/-! ### The Undefined Instruction exception (60_exceptions.md R436, R437) -/

/-- The address of the Undefined Instruction vector (60_exceptions.md R436). -/
def State.undefinedVector (s : State) : Word := if s.highVectors then 0xFFFF0004#32 else 0x00000004#32

/-- `raise UndefinedInstruction` on the instruction at the program counter: the core's entry sequence, with the
window closed (60_exceptions.md R428, R436). PRESUMED in the entry's details: log entry 28. -/
def State.takeUndefined (s : State) : State :=
  { s with
    r14Und := s.pc + 4#32
    spsrUnd := s.cpsr
    cpsr := Cpsr.enterUndefined s.cpsr
    pc := s.undefinedVector
    win := .closed }

/-- The return that retries the bounced instruction: to R14_und - 4, CPSR from SPSR_und (60_exceptions.md R437). -/
def State.returnFromUndefined (s : State) : State := { s with cpsr := s.spsrUnd, pc := s.r14Und - 4#32 }

/-! ### System registers (10_state.md R51) -/

/-- The value FMRX reads; FPINST2 is a free value while it is not defined (45_ls_register_transfer.md R358,
10_state.md R73). -/
def State.readSys (s : State) (r : SysReg) : Word × State :=
  match r with
  | .fpsid => (Config.fpsid, s)
  | .fpscr => (s.fpscr, s)
  | .fpexc => (s.fpexc, s)
  | .fpinst => (s.fpinst, s)
  | .fpinst2 => if s.fpinst2Defined then (s.fpinst2, s) else s.drawWord
  | .mvfr0 => (Config.mvfr0, s)
  | .mvfr1 => (Config.mvfr1, s)

/-- What FMXR writes; `none` when it presents a 1 in a Should-Be-Zero bit (45_ls_register_transfer.md R357). -/
def State.writeSys (s : State) (r : SysReg) (v : Word) : Option State :=
  match r with
  | .fpsid => some s
  | .fpscr => if v &&& Fpscr.sbzMask = 0#32 then some (s.setFpscr v) else none
  | .fpexc => if v &&& Fpexc.sbzMask = 0#32 then some (s.setFpexc v) else none
  | .fpinst => some (s.setFpinst v)
  | .fpinst2 => some (s.setFpinst2 v)
  | .mvfr0 => some s
  | .mvfr1 => some s

end Sys2Proof.Machine
end

