-- ==== Sys2Proof/Machine/Operands.lean ====
section
/-! DEFINITION. Every operand form: the single and double views of the register file, register masks, the stepping of
short vectors, register lists and the addresses of loads and stores (10_state.md R31; 40_cdp_common.md R161 to R165;
44_ls_memory.md R312, R313, R320, R321; 60_exceptions.md R423). -/

namespace Sys2Proof.Machine

/-! ### Register views -/

/-- The S register that holds `D[d][31:0]` (10_state.md R31). -/
def lowHalf (d : DReg) : BitVec 5 := d ++ 0#1

/-- The S register that holds `D[d][63:32]` (10_state.md R31). -/
def highHalf (d : DReg) : BitVec 5 := d ++ 1#1

/-- D`d` (10_state.md R31). -/
def State.readD (s : State) (d : DReg) : BitVec 64 := s.readS (highHalf d) ++ s.readS (lowHalf d)

/-- D`d` written: both halves (10_state.md R31). -/
def State.writeD (s : State) (d : DReg) (v : BitVec 64) : State :=
  (s.writeS (lowHalf d) (v.extractLsb' 0 32)).writeS (highHalf d) (v.extractLsb' 32 32)

/-- The D register of a register number held in 5 bits. -/
def dOf (r : BitVec 5) : DReg := r.extractLsb' 0 4

/-- A D register number held in 5 bits. -/
def ofD (d : DReg) : BitVec 5 := d.setWidth 5

/-- A register of either precision, its pattern in 64 bits (10_state.md R30, R31). -/
def State.readReg (s : State) (p : Prec) (r : BitVec 5) : BitVec 64 :=
  match p with
  | .single => (s.readS r).setWidth 64
  | .double => s.readD (dOf r)

/-- A register of either precision written. -/
def State.writeReg (s : State) (p : Prec) (r : BitVec 5) (v : BitVec 64) : State :=
  match p with
  | .single => s.writeS r (v.setWidth 32)
  | .double => s.writeD (dOf r) v

/-- The fields of a register's pattern. -/
def State.readFp (s : State) (p : Prec) (r : BitVec 5) : Fp := unpack p (s.readReg p r)

/-- The S registers of a register, as a mask (60_exceptions.md R423). -/
def regMask (p : Prec) (r : BitVec 5) : Word :=
  match p with
  | .single => 1#32 <<< r.toNat
  | .double => (1#32 <<< (lowHalf (dOf r)).toNat) ||| (1#32 <<< (highHalf (dOf r)).toNat)

/-- The union of masks. -/
def unionMask (ms : List Word) : Word := ms.foldl (· ||| ·) 0#32

/-! ### Short vectors (40_cdp_common.md R161 to R165) -/

/-- The register number is in bank 0 (40_cdp_common.md R161). -/
def inBank0 (p : Prec) (r : BitVec 5) : Bool :=
  match p with
  | .single => decide (r.toNat < 8)
  | .double => decide (r.toNat < 4)

/-- The stride: 2 for STRIDE = 11, else 1 (10_state.md R59). -/
def strideOf (fpscr : Word) : Nat := if Fpscr.stride fpscr = 0b11#2 then 2 else 1

/-- `step(F, r, k)`: the index advances modulo the bank size, the bank stays (40_cdp_common.md R164). -/
def stepReg (p : Prec) (stride : Nat) (r : BitVec 5) (k : Nat) : BitVec 5 :=
  let m : BitVec 5 :=
    match p with
    | .single => 7#5
    | .double => 3#5
  (r &&& ~~~m) ||| ((r + BitVec.ofNat 5 (k * stride)) &&& m)

/-! ### Loads and stores (44_ls_memory.md R313, R320, R321) -/

/-- The byte offset of `n` words (30_encoding.md R135). -/
def wordsOffset (n : Nat) : Word := BitVec.ofNat 32 (4 * n)

/-- The address of a single transfer: base plus or minus `offset8` words (44_ls_memory.md R313). -/
def State.singleAddr (s : State) (rn : ArmReg) (u : Bool) (offset8 : BitVec 8) : Word :=
  if u then s.readArm rn + wordsOffset offset8.toNat else s.readArm rn - wordsOffset offset8.toNat

/-- The S registers `d .. d+n-1` (44_ls_memory.md R320). -/
def sList (d : SReg) (n : Nat) : List (BitVec 5) := (List.range n).map (fun j => d + BitVec.ofNat 5 j)

/-- The S registers of `D[d] .. D[d+n-1]` in the order of their words in memory: the lower half first, or the upper
one when BIG_ENDIAN (20_memory.md R93). -/
def dList (big : Bool) (d : DReg) (n : Nat) : List (BitVec 5) :=
  (List.range n).flatMap (fun j =>
    let r := d + BitVec.ofNat 4 j
    if big then [highHalf r, lowHalf r] else [lowHalf r, highHalf r])

/-- The three addressing modes of a multiple transfer (44_ls_memory.md R321). -/
inductive ListMode where
  | ia | iaWb | dbWb
deriving DecidableEq, Repr

/-- The address of the first word (44_ls_memory.md R321). -/
def ListMode.start (m : ListMode) (base : Word) (words : Nat) : Word :=
  match m with
  | .ia => base
  | .iaWb => base
  | .dbWb => base - wordsOffset words

/-- The base register afterwards, if the mode writes it (44_ls_memory.md R321). -/
def ListMode.writeback (m : ListMode) (base : Word) (words : Nat) : Option Word :=
  match m with
  | .ia => none
  | .iaWb => some (base + wordsOffset words)
  | .dbWb => some (base - wordsOffset words)

/-- Each register with the address of its word, ascending from `start` (44_ls_memory.md R321). -/
def withAddrs (start : Nat) (regs : List (BitVec 5)) : List (BitVec 5 × Nat) :=
  match regs with
  | [] => []
  | r :: rest => (r, start) :: withAddrs (start + 4) rest

end Sys2Proof.Machine
end

