-- ==== Sys2Proof/Machine/Cdp.lean ====
section
/-! DEFINITION. The iterations of a CDP instruction: classification, stepping, legality, the lock masks, the bounce and
the level H run (40_cdp_common.md R161 to R170; 60_exceptions.md R415 to R417, R423). -/

namespace Sys2Proof.Machine

/-- How a CDP instruction runs: its number of iterations and which operands step (40_cdp_common.md R161, R165). -/
structure Shape where
  iters : Nat
  stepsDN : Bool
  stepsM : Bool
deriving DecidableEq, Repr

/-- The classification of a CDP instruction under FPSCR `w` (40_cdp_common.md R161, R162). -/
def Cdp.shape (c : Cdp) (w : Word) : Shape :=
  if !c.op.canVector || Fpscr.len w == 0 || inBank0 c.p c.d then ⟨1, false, false⟩
  else if inBank0 c.p c.m then ⟨Fpscr.len w + 1, true, false⟩
  else ⟨Fpscr.len w + 1, true, true⟩

/-- The instruction's registers in iteration `k` (40_cdp_common.md R164, R165). -/
def Cdp.at (c : Cdp) (sh : Shape) (w : Word) (k : Nat) : Cdp :=
  { c with
    d := if sh.stepsDN then stepReg c.p (strideOf w) c.d k else c.d
    n := if sh.stepsDN then stepReg c.p (strideOf w) c.n k else c.n
    m := if sh.stepsM then stepReg c.p (strideOf w) c.m k else c.m }

/-- The S registers an iteration writes (60_exceptions.md R423). -/
def Cdp.dstMask (c : Cdp) : Word := if c.op.writesD then regMask c.dPrec c.d else 0#32

/-- The S registers an iteration reads (60_exceptions.md R423). -/
def Cdp.srcMask (c : Cdp) : Word :=
  (if c.op.readsD then regMask c.p c.d else 0#32) ||| (if c.op.readsN then regMask c.p c.n else 0#32) |||
    (if c.op.readsM then regMask c.mPrec c.m else 0#32)

/-- The iterations `k .. k+count-1` of an instruction. -/
def Cdp.iterations (c : Cdp) (sh : Shape) (w : Word) (k count : Nat) : List Cdp :=
  (List.range count).map (fun j => c.at sh w (k + j))

/-- The destination registers of iterations `k .. k+count-1` (60_exceptions.md R423). -/
def Cdp.dstMasks (c : Cdp) (sh : Shape) (w : Word) (k count : Nat) : Word :=
  unionMask ((c.iterations sh w k count).map Cdp.dstMask)

/-- The source registers of iterations `k .. k+count-1` (60_exceptions.md R423). -/
def Cdp.srcMasks (c : Cdp) (sh : Shape) (w : Word) (k count : Nat) : Word :=
  unionMask ((c.iterations sh w k count).map Cdp.srcMask)

/-- The registers of one operand over all iterations (40_cdp_common.md R169). -/
def operandMask (p : Prec) (steps : Bool) (w : Word) (r : BitVec 5) (iters : Nat) : Word :=
  unionMask ((List.range iters).map (fun k => regMask p (if steps then stepReg p (strideOf w) r k else r)))

/-- A source vector shares a register with the destination vector without being it (40_cdp_common.md R169). -/
def Cdp.overlaps (c : Cdp) (sh : Shape) (w : Word) : Bool :=
  let dst := operandMask c.p true w c.d sh.iters
  (c.op.readsN && (dst &&& operandMask c.p true w c.n sh.iters != 0#32) && c.n != c.d) ||
    ((dst &&& operandMask c.p sh.stepsM w c.m sh.iters != 0#32) && !(sh.stepsM && c.m == c.d))

/-- The vector makes more than one access to a register: length times stride exceeds the bank
(40_cdp_common.md R168 (b), 10_state.md R60). -/
def Cdp.wraps (c : Cdp) (sh : Shape) (w : Word) : Bool :=
  decide ((match c.p with | .single => 8 | .double => 4) < sh.iters * strideOf w)

/-- LEN and STRIDE have a legal meaning for every CDP instruction (40_cdp_common.md R168 (a)). -/
def legalLenStride (w : Word) : Bool :=
  Fpscr.stride w == 0b00#2 || (Fpscr.stride w == 0b11#2 && Fpscr.len w != 0)

/-- LEN and STRIDE have a meaning and the vectors of the instruction overlap (40_cdp_common.md R169). -/
def Cdp.overlapping (c : Cdp) (w : Word) : Bool :=
  legalLenStride w && (c.shape w).stepsDN && c.overlaps (c.shape w) w

/-- The Unpredictable cases of a CDP instruction that depend on FPSCR (40_cdp_common.md R168, R169). -/
def Cdp.refusal (c : Cdp) (w : Word) : Option Refusal :=
  let sh := c.shape w
  if !legalLenStride w then some .illegalLenStride
  else if sh.stepsDN && c.wraps sh w then some .vectorWraps
  else if sh.stepsDN && c.overlaps sh w then some .vectorOverlap
  else none

/-- A register number as the five bits of its field (30_encoding.md R124). -/
def regField (p : Prec) (r : BitVec 5) : BitVec 5 :=
  match p with
  | .single => r
  | .double => evenReg (dOf r)

/-- FPINST after a bounce: the word with condition AL and the stepping register fields those of the exceptional
iteration `c` (60_exceptions.md R415, 10_state.md R72). -/
def Cdp.exceptionalWord (c : Cdp) (sh : Shape) (word : Word) : Word :=
  let w0 := alwaysWord word
  let w1 := if sh.stepsDN then setFieldD w0 (regField c.p c.d) else w0
  let w2 := if sh.stepsDN && c.op.readsN then setFieldN w1 (regField c.p c.n) else w1
  if sh.stepsM then setFieldM w2 (regField c.p c.m) else w2

/-- The patterns an iteration reads (40_cdp_common.md R170). -/
def State.source (s : State) (c : Cdp) : Source :=
  ⟨s.readReg c.p c.d, s.readReg c.p c.n, s.readReg c.mPrec c.m⟩

/-- What a completed iteration writes: its register or FPSCR[31:28], and its cumulative flags
(40_cdp_common.md R170). -/
def State.complete (s : State) (c : Cdp) (e : Effect) (fl : Cumulative) : State :=
  match e with
  | .reg v => (s.writeReg c.dPrec c.d v).raise fl
  | .nzcv b => (s.setFpscr (Fpscr.setNzcv s.fpscr b)).raise fl

/-- Whether an iteration bounces, and with which FPEXC flags: a MUST condition decides and sets its flag, a MAY condition
is drawn, and so is IOC where an Input exception makes it optional (40_cdp_common.md R202, 60_exceptions.md R416; log
entries 16 and 17). -/
def State.decideBounce (s : State) (c : Check) : Option BounceFlags × State :=
  let o := s.drawIf c.mayOver
  let u := o.2.drawIf c.mayUnder
  if c.must || o.1 || u.1 then
    let v := u.2.drawIf (c.input && c.optIoc && !c.invalid)
    (some { inv := c.input, ufc := c.unf || u.1, ofc := c.ovf || o.1, ioc := c.invalid || v.1 }, v.2)
  else (none, u.2)

/-- `bounce(fl)` at iteration `k` of `word` (60_exceptions.md R415): the exceptional state is entered, the window
opens, FPSCR.IDC is drawn if the bounce is an enabled Input Subnormal exception (40_cdp_common.md R185), and
FPINST2 holds invalid data unless FP2V says otherwise (10_state.md R73). -/
def State.bounce (s : State) (word : Word) (c : Cdp) (sh : Shape) (w : Word) (k : Nat) (inSub : Bool)
    (fl : BounceFlags) : State :=
  let left := sh.iters - k
  let idc := s.drawIf inSub
  let s1 := idc.2.raise { idc := idc.1 }
  let s2 := s1.setFpexc (Fpexc.bounce s1.fpexc (left - 1) fl)
  let s3 := s2.setFpinst ((c.at sh w k).exceptionalWord sh word)
  let s4 := s3.setFpinst2Defined (s3.fpinst2Defined && Fpexc.fp2v s3.fpexc)
  s4.setWin (.opened (c.dstMasks sh w k left) (c.srcMasks sh w k left) (left == 1))

/-- The iterations at level H, `left` of them, under the FPSCR `w` sampled at the start (40_cdp_common.md R170). -/
def State.runIterations (s : State) (word : Word) (c : Cdp) (sh : Shape) (w : Word) (left : Nat) : State :=
  match left with
  | 0 => s
  | rest + 1 =>
    let k := sh.iters - (rest + 1)
    let ck := c.at sh w k
    let r := iterH c.op c.p w (s.source ck)
    let b := s.decideBounce r.1
    match b.1 with
    | some fl => b.2.bounce word c sh w k r.1.inSub fl
    | none => State.runIterations (b.2.complete ck r.2.1 r.2.2) word c sh w rest

/-- A CDP instruction executed at level H: its iterations, then the next instruction (40_cdp_common.md R170). -/
def State.runCdp (s : State) (word : Word) (c : Cdp) : State :=
  (s.runIterations word c (c.shape s.fpscr) s.fpscr (c.shape s.fpscr).iters).advance

end Sys2Proof.Machine
end

