-- ==== Sys2Proof/Machine/Support.lean ====
section
/-! DEFINITION. SUPPORT_CODE of model level A: the completion of the exceptional instruction and of the captured one,
composed with the entry to the Undefined Instruction exception and the return from it (60_exceptions.md R440 to
R449; log entry 30). -/

namespace Sys2Proof.Machine

/-- The CDP instruction an instruction is, if it is one (30_encoding.md R126, R127). -/
def cdpOf (i : Instr) : Option Cdp :=
  match i with
  | .fmacs _ d n m => some ⟨.mac false false, .single, d, n, m⟩
  | .fmacd _ d n m => some ⟨.mac false false, .double, ofD d, ofD n, ofD m⟩
  | .fnmacs _ d n m => some ⟨.mac true false, .single, d, n, m⟩
  | .fnmacd _ d n m => some ⟨.mac true false, .double, ofD d, ofD n, ofD m⟩
  | .fmscs _ d n m => some ⟨.mac false true, .single, d, n, m⟩
  | .fmscd _ d n m => some ⟨.mac false true, .double, ofD d, ofD n, ofD m⟩
  | .fnmscs _ d n m => some ⟨.mac true true, .single, d, n, m⟩
  | .fnmscd _ d n m => some ⟨.mac true true, .double, ofD d, ofD n, ofD m⟩
  | .fmuls _ d n m => some ⟨.mul false, .single, d, n, m⟩
  | .fmuld _ d n m => some ⟨.mul false, .double, ofD d, ofD n, ofD m⟩
  | .fnmuls _ d n m => some ⟨.mul true, .single, d, n, m⟩
  | .fnmuld _ d n m => some ⟨.mul true, .double, ofD d, ofD n, ofD m⟩
  | .fadds _ d n m => some ⟨.add false, .single, d, n, m⟩
  | .faddd _ d n m => some ⟨.add false, .double, ofD d, ofD n, ofD m⟩
  | .fsubs _ d n m => some ⟨.add true, .single, d, n, m⟩
  | .fsubd _ d n m => some ⟨.add true, .double, ofD d, ofD n, ofD m⟩
  | .fdivs _ d n m => some ⟨.div, .single, d, n, m⟩
  | .fdivd _ d n m => some ⟨.div, .double, ofD d, ofD n, ofD m⟩
  | .fcpys _ d m => some ⟨.copy .copy, .single, d, 0#5, m⟩
  | .fcpyd _ d m => some ⟨.copy .copy, .double, ofD d, 0#5, ofD m⟩
  | .fabss _ d m => some ⟨.copy .abs, .single, d, 0#5, m⟩
  | .fabsd _ d m => some ⟨.copy .abs, .double, ofD d, 0#5, ofD m⟩
  | .fnegs _ d m => some ⟨.copy .neg, .single, d, 0#5, m⟩
  | .fnegd _ d m => some ⟨.copy .neg, .double, ofD d, 0#5, ofD m⟩
  | .fsqrts _ d m => some ⟨.sqrt, .single, d, 0#5, m⟩
  | .fsqrtd _ d m => some ⟨.sqrt, .double, ofD d, 0#5, ofD m⟩
  | .fcmps _ d m => some ⟨.cmp false, .single, d, 0#5, m⟩
  | .fcmpd _ d m => some ⟨.cmp false, .double, ofD d, 0#5, ofD m⟩
  | .fcmpes _ d m => some ⟨.cmp true, .single, d, 0#5, m⟩
  | .fcmped _ d m => some ⟨.cmp true, .double, ofD d, 0#5, ofD m⟩
  | .fcmpzs _ d _ => some ⟨.cmpz false, .single, d, 0#5, 0#5⟩
  | .fcmpzd _ d _ => some ⟨.cmpz false, .double, ofD d, 0#5, 0#5⟩
  | .fcmpezs _ d _ => some ⟨.cmpz true, .single, d, 0#5, 0#5⟩
  | .fcmpezd _ d _ => some ⟨.cmpz true, .double, ofD d, 0#5, 0#5⟩
  | .fcvtds _ d m => some ⟨.cvt, .single, ofD d, 0#5, m⟩
  | .fcvtsd _ d m => some ⟨.cvt, .double, d, 0#5, ofD m⟩
  | .fuitos _ d m => some ⟨.fromInt false, .single, d, 0#5, m⟩
  | .fuitod _ d m => some ⟨.fromInt false, .double, ofD d, 0#5, m⟩
  | .fsitos _ d m => some ⟨.fromInt true, .single, d, 0#5, m⟩
  | .fsitod _ d m => some ⟨.fromInt true, .double, ofD d, 0#5, m⟩
  | .ftouis _ d m => some ⟨.toInt false false, .single, d, 0#5, m⟩
  | .ftouid _ d m => some ⟨.toInt false false, .double, d, 0#5, ofD m⟩
  | .ftouizs _ d m => some ⟨.toInt false true, .single, d, 0#5, m⟩
  | .ftouizd _ d m => some ⟨.toInt false true, .double, d, 0#5, ofD m⟩
  | .ftosis _ d m => some ⟨.toInt true false, .single, d, 0#5, m⟩
  | .ftosid _ d m => some ⟨.toInt true false, .double, d, 0#5, ofD m⟩
  | .ftosizs _ d m => some ⟨.toInt true true, .single, d, 0#5, m⟩
  | .ftosizd _ d m => some ⟨.toInt true true, .double, d, 0#5, ofD m⟩
  | .flds .. => none
  | .fldd .. => none
  | .fsts .. => none
  | .fstd .. => none
  | .fldmsIa .. => none
  | .fldmsIaWb .. => none
  | .fldmsDbWb .. => none
  | .fldmdIa .. => none
  | .fldmdIaWb .. => none
  | .fldmdDbWb .. => none
  | .fldmxIa .. => none
  | .fldmxIaWb .. => none
  | .fldmxDbWb .. => none
  | .fstmsIa .. => none
  | .fstmsIaWb .. => none
  | .fstmsDbWb .. => none
  | .fstmdIa .. => none
  | .fstmdIaWb .. => none
  | .fstmdDbWb .. => none
  | .fstmxIa .. => none
  | .fstmxIaWb .. => none
  | .fstmxDbWb .. => none
  | .fmsr .. => none
  | .fmrs .. => none
  | .fmdlr .. => none
  | .fmrdl .. => none
  | .fmdhr .. => none
  | .fmrdh .. => none
  | .fmxr .. => none
  | .fmrx .. => none
  | .fmstat .. => none
  | .fmdrr .. => none
  | .fmrrd .. => none
  | .fmsrr .. => none
  | .fmrrs .. => none
/-- The state a user trap handler is called in: what the trapped iteration wrote and the flags it raised, those before the
trap's own among them (40_cdp_common.md R205, 60_exceptions.md R446; DESIGN CHOICE: log entry 41). -/
def State.atTrap (s : State) (c : Cdp) (written : Option (BitVec 64)) (fl : Cumulative) : State :=
  match written with
  | some v => (s.writeReg c.dPrec c.d v).raise fl
  | none => s.raise fl

/-- The iterations `k ..` of an instruction at level A, `left` of them (60_exceptions.md R443). -/
def State.archIterations (s : State) (c : Cdp) (sh : Shape) (w : Word) (k left : Nat) : Result :=
  match left with
  | 0 => .next s
  | rest + 1 =>
    let ck := c.at sh w k
    match iterA c.op c.p w (s.source ck) with
    | .done e fl => State.archIterations (s.complete ck e fl) c sh w (k + 1) rest
    | .trap kind written fl => .fault (.userTrap kind (s.atTrap ck written fl))

/-- The CDP instruction a word holds, if support code can complete it: neither Unpredictable nor, for FPINST, a copy
the hardware cannot have bounced (60_exceptions.md R449, 40_cdp_common.md R192). -/
def supportInstr (word : Word) (copies : Bool) : Option Cdp :=
  match decode word with
  | .instr i =>
    match cdpOf i, i.unpredictable with
    | some c, none => if c.op.isCopy && !copies then none else some c
    | _, _ => none
  | _ => none

/-- FPINST completed: the exceptional iteration and the `remaining` ones (60_exceptions.md R443). LEN and STRIDE are not
checked again: a setting that software has made illegal since is used as it stands, STRIDE 01 and 10 counting as 1:
DESIGN CHOICE, log entry 47. -/
def State.completeExceptional (s : State) (word : Word) (remaining : Nat) : Result :=
  match supportInstr word Config.ixeBouncesCopy with
  | none => .refused .supportCode
  | some c => s.archIterations c (c.shape s.fpscr) s.fpscr 0 (remaining + 1)

/-- FPINST2 completed: all its iterations, "by the same rules as if the hardware executed it", so that an illegal LEN or
STRIDE is refused (60_exceptions.md R443; log entry 47). -/
def State.completeCaptured (s : State) (word : Word) : Result :=
  match supportInstr word true with
  | none => .refused .supportCode
  | some c =>
    match c.refusal s.fpscr with
    | some _ => .refused .supportCode
    | none => s.archIterations c (c.shape s.fpscr) s.fpscr 0 (c.shape s.fpscr).iters

/-- A result carried on. -/
def thenDo (r : Result) (f : State → Result) : Result :=
  match r with
  | .next s => f s
  | .fault e => .fault e
  | .refused e => .refused e

/-- The support code on the bounced instruction at the program counter: entry, FPEXC read and cleared, FPINST and the
remaining iterations, FPINST2 if FP2V, return to retry (60_exceptions.md R441, R443, R449). A user trap is called
after the entry and before the return, so its state is in Undefined mode with the program counter at the vector:
DESIGN CHOICE, log entry 42. -/
def State.supportCode (s : State) : Result :=
  let two := s.readSys .fpinst2
  let second := Fpexc.fp2v s.fpexc
  let s1 := (if second then two.2 else s).takeUndefined
  let s2 := s1.setFpexc (Fpexc.clearState s.fpexc)
  thenDo (s2.completeExceptional s.fpinst (Fpexc.remaining s.fpexc)) (fun s3 =>
    thenDo (if second then s3.completeCaptured two.1 else .next s3) (fun s4 =>
      .next s4.returnFromUndefined))

end Sys2Proof.Machine
end

