-- ==== Sys2Proof/Machine/Gate.lean ====
section
/-! DEFINITION. The checks on one VFP instruction, in the order of 60_exceptions.md R454, and what an instruction does
in the exceptional state and in the open window (60_exceptions.md R421 to R431, R450 to R454). -/

namespace Sys2Proof.Machine

/-- CP_ACCESS allows the instruction in the current mode (60_exceptions.md R452). -/
def State.cpAllows (s : State) : Bool :=
  match s.cpAccess with
  | .denied => false
  | .privilegedOnly => Cpsr.privileged s.cpsr
  | .full => true

/-- What an instruction accesses, as far as EN and the mode matter: the coprocessor, or a system register. -/
inductive Access where
  | vfp
  | sys (r : SysReg)
deriving DecidableEq, Repr

/-- The instruction is permitted by FPEXC.EN and the mode (10_state.md R52 Table 3-4, 60_exceptions.md R451, R453). -/
def Access.permitted (a : Access) (en priv : Bool) : Bool :=
  match a with
  | .vfp => en
  | .sys .fpscr => en
  | .sys .fpsid => en || priv
  | .sys .mvfr0 => en || priv
  | .sys .mvfr1 => en || priv
  | .sys .fpexc => priv
  | .sys .fpinst => priv
  | .sys .fpinst2 => priv

/-- The trap of R452, R453 and R451 is not taken. -/
def State.accessible (s : State) (a : Access) : Bool :=
  s.cpAllows && a.permitted (Fpexc.en s.fpexc) (Cpsr.privileged s.cpsr)

/-- Steps 1 to 5 of R454: a failed condition cancels the instruction, a denied or illegal one takes the Undefined
Instruction exception, one whose form is Unpredictable is refused. -/
def checked (i : Instr) (a : Access) (go : State → Result) (s : State) : Result :=
  if !condPassed i.cond s.cpsr then .next s.advance
  else if !s.accessible a then .next s.takeUndefined
  else
    match i.unpredictable with
    | some why => .refused (.unpredictable why)
    | none => go s

/-- The trigger instruction: at level H it bounces, with nothing executed and EX as it is; at level A the support code
runs and the instruction is then executed (60_exceptions.md R421, R449). -/
def trigger (go : State → Result) (s : State) : Result :=
  match s.level with
  | .hardware => .next s.takeUndefined
  | .architecture => thenDo s.supportCode go

/-- The coprocessor is in the exceptional state or the window is open (60_exceptions.md R454 step 7). -/
def State.exceptional (s : State) : Bool := Fpexc.ex s.fpexc || s.win != .closed

/-- A load, a store or a move: it runs, runs ahead of the trap, or is the trigger; a hazard makes it the trigger
(60_exceptions.md R424). `writes` and `reads` are its VFP registers. -/
def issueTransfer (writes reads : Word) (go : State → Result) (s : State) : Result :=
  if !s.exceptional then go s
  else
    match s.win with
    | .closed => trigger go s
    | .opened dst src _ =>
      if writes &&& (dst ||| src) != 0#32 || reads &&& dst != 0#32 then trigger go s
      else
        let ahead := s.draw
        if ahead.1 then go ahead.2 else trigger go ahead.2

/-- A serializing instruction: the window closes, then an access to FPSCR in the exceptional state is the trigger and
any other executes (60_exceptions.md R422, R427; 45_ls_register_transfer.md R360). -/
def issueSerial (triggers : Bool) (go : State → Result) (s : State) : Result :=
  if triggers && Fpexc.ex s.fpexc then trigger go s.closeWin else go s.closeWin

/-- The captured pretrigger instruction: FPINST2 and FP2V written, nothing executed, the window closed, the core goes
on (60_exceptions.md R426). -/
def State.capture (s : State) (word : Word) : State :=
  (((s.setFpinst2 (alwaysWord word)).setFpexc (Fpexc.setFp2v s.fpexc)).closeWin).advance

/-- No register of any iteration of the instruction is locked (60_exceptions.md R426). -/
def Cdp.noHazard (c : Cdp) (w locked : Word) : Bool :=
  let sh := c.shape w
  (c.dstMasks sh w 0 sh.iters ||| c.srcMasks sh w 0 sh.iters) &&& locked == 0#32

/-- A CDP instruction executed: LEN, STRIDE and the vectors have a legal meaning, or it is refused
(40_cdp_common.md R168 to R170). -/
def startCdp (word : Word) (c : Cdp) (s : State) : Result :=
  match c.refusal s.fpscr with
  | some r => .refused r
  | none => .next (s.runCdp word c)

/-- A CDP instruction: it runs, is captured in the pretrigger slot, or is the trigger (60_exceptions.md R426). The check
of LEN, STRIDE and the vectors comes first in the open window (R426). In the closed one overlapping vectors are refused
first too (R435, R454), and LEN, STRIDE and wrapping are checked only of what executes (40_cdp_common.md R168, decision
D22): DEDUCED, log entry 21. No CDP instruction completes ahead of the trap (R426, R429 (a)), where 43_ds_divide_sqrt.md
R309 has an FADDS after an exceptional FDIVS retire before it: DEDUCED, log entry 15. -/
def issueCdp (word : Word) (c : Cdp) (s : State) : Result :=
  if !s.exceptional then startCdp word c s
  else
    match s.win with
    | .closed => if c.overlapping s.fpscr then .refused .vectorOverlap else trigger (startCdp word c) s
    | .opened dst src slot =>
      match c.refusal s.fpscr with
      | some r => .refused r
      | none =>
        if slot && c.noHazard s.fpscr (dst ||| src) then
          let captured := s.draw
          if captured.1 then .next (captured.2.capture word) else trigger (startCdp word c) captured.2
        else trigger (startCdp word c) s

/-- `exec_cdp` (40_cdp_common.md R170) with the checks in the order of R454. -/
def execCdp (i : Instr) (c : Cdp) (s : State) : Result := checked i .vfp (issueCdp (encode i) c) s

end Sys2Proof.Machine
end

