-- ==== Sys2Proof/Machine/Convert.lean ====
section
/-! DEFINITION. The 28 copy, compare and conversion instructions (42_fmac_copy_compare_convert.md R251 to R291). -/

namespace Sys2Proof.Machine

/-- FCPYS Sd, Sm: copy (R132, R251). -/
def execFcpys (c : Cond) (d m : SReg) (s : State) : Result :=
  execCdp (.fcpys c d m) ⟨.copy .copy, .single, d, 0#5, m⟩ s

/-- FCPYD Dd, Dm: copy (R132, R252). -/
def execFcpyd (c : Cond) (d m : DReg) (s : State) : Result :=
  execCdp (.fcpyd c d m) ⟨.copy .copy, .double, ofD d, 0#5, ofD m⟩ s

/-- FABSS Sd, Sm: absolute value (R132, R253). -/
def execFabss (c : Cond) (d m : SReg) (s : State) : Result :=
  execCdp (.fabss c d m) ⟨.copy .abs, .single, d, 0#5, m⟩ s

/-- FABSD Dd, Dm: absolute value (R132, R254). -/
def execFabsd (c : Cond) (d m : DReg) (s : State) : Result :=
  execCdp (.fabsd c d m) ⟨.copy .abs, .double, ofD d, 0#5, ofD m⟩ s

/-- FNEGS Sd, Sm: negation (R132, R255). -/
def execFnegs (c : Cond) (d m : SReg) (s : State) : Result :=
  execCdp (.fnegs c d m) ⟨.copy .neg, .single, d, 0#5, m⟩ s

/-- FNEGD Dd, Dm: negation (R132, R256). -/
def execFnegd (c : Cond) (d m : DReg) (s : State) : Result :=
  execCdp (.fnegd c d m) ⟨.copy .neg, .double, ofD d, 0#5, ofD m⟩ s

/-- FCMPS Sd, Sm: compare (R132, R259). -/
def execFcmps (c : Cond) (d m : SReg) (s : State) : Result :=
  execCdp (.fcmps c d m) ⟨.cmp false, .single, d, 0#5, m⟩ s

/-- FCMPD Dd, Dm: compare (R132, R260). -/
def execFcmpd (c : Cond) (d m : DReg) (s : State) : Result :=
  execCdp (.fcmpd c d m) ⟨.cmp false, .double, ofD d, 0#5, ofD m⟩ s

/-- FCMPES Sd, Sm: compare, NaN exceptions (R132, R261). -/
def execFcmpes (c : Cond) (d m : SReg) (s : State) : Result :=
  execCdp (.fcmpes c d m) ⟨.cmp true, .single, d, 0#5, m⟩ s

/-- FCMPED Dd, Dm: compare, NaN exceptions (R132, R262). -/
def execFcmped (c : Cond) (d m : DReg) (s : State) : Result :=
  execCdp (.fcmped c d m) ⟨.cmp true, .double, ofD d, 0#5, ofD m⟩ s

/-- FCMPZS Sd: compare with zero; `sbz` is Fm:M, Should Be Zero (R132, R263). -/
def execFcmpzs (c : Cond) (d : SReg) (sbz : BitVec 5) (s : State) : Result :=
  execCdp (.fcmpzs c d sbz) ⟨.cmpz false, .single, d, 0#5, 0#5⟩ s

/-- FCMPZD Dd: compare with zero; `sbz` is Fm:M, Should Be Zero (R132, R264). -/
def execFcmpzd (c : Cond) (d : DReg) (sbz : BitVec 5) (s : State) : Result :=
  execCdp (.fcmpzd c d sbz) ⟨.cmpz false, .double, ofD d, 0#5, 0#5⟩ s

/-- FCMPEZS Sd: compare with zero, NaN exceptions; `sbz` is Fm:M, Should Be Zero (R132, R265). -/
def execFcmpezs (c : Cond) (d : SReg) (sbz : BitVec 5) (s : State) : Result :=
  execCdp (.fcmpezs c d sbz) ⟨.cmpz true, .single, d, 0#5, 0#5⟩ s

/-- FCMPEZD Dd: compare with zero, NaN exceptions; `sbz` is Fm:M, Should Be Zero (R132, R266). -/
def execFcmpezd (c : Cond) (d : DReg) (sbz : BitVec 5) (s : State) : Result :=
  execCdp (.fcmpezd c d sbz) ⟨.cmpz true, .double, ofD d, 0#5, 0#5⟩ s

/-- FCVTDS Dd, Sm: single to double precision (R132, R276). -/
def execFcvtds (c : Cond) (d : DReg) (m : SReg) (s : State) : Result :=
  execCdp (.fcvtds c d m) ⟨.cvt, .single, ofD d, 0#5, m⟩ s

/-- FCVTSD Sd, Dm: double to single precision (R132, R275). -/
def execFcvtsd (c : Cond) (d : SReg) (m : DReg) (s : State) : Result :=
  execCdp (.fcvtsd c d m) ⟨.cvt, .double, d, 0#5, ofD m⟩ s

/-- FUITOS Sd, Sm: unsigned integer to float (R132, R271). -/
def execFuitos (c : Cond) (d : SReg) (m : SReg) (s : State) : Result :=
  execCdp (.fuitos c d m) ⟨.fromInt false, .single, d, 0#5, m⟩ s

/-- FUITOD Dd, Sm: unsigned integer to float (R132, R272). -/
def execFuitod (c : Cond) (d : DReg) (m : SReg) (s : State) : Result :=
  execCdp (.fuitod c d m) ⟨.fromInt false, .double, ofD d, 0#5, m⟩ s

/-- FSITOS Sd, Sm: signed integer to float (R132, R273). -/
def execFsitos (c : Cond) (d : SReg) (m : SReg) (s : State) : Result :=
  execCdp (.fsitos c d m) ⟨.fromInt true, .single, d, 0#5, m⟩ s

/-- FSITOD Dd, Sm: signed integer to float (R132, R274). -/
def execFsitod (c : Cond) (d : DReg) (m : SReg) (s : State) : Result :=
  execCdp (.fsitod c d m) ⟨.fromInt true, .double, ofD d, 0#5, m⟩ s

/-- FTOUIS Sd, Sm: float to unsigned integer (R132, R284). -/
def execFtouis (c : Cond) (d : SReg) (m : SReg) (s : State) : Result :=
  execCdp (.ftouis c d m) ⟨.toInt false false, .single, d, 0#5, m⟩ s

/-- FTOUID Sd, Dm: float to unsigned integer (R132, R285). -/
def execFtouid (c : Cond) (d : SReg) (m : DReg) (s : State) : Result :=
  execCdp (.ftouid c d m) ⟨.toInt false false, .double, d, 0#5, ofD m⟩ s

/-- FTOUIZS Sd, Sm: float to unsigned integer, towards zero (R132, R286). -/
def execFtouizs (c : Cond) (d : SReg) (m : SReg) (s : State) : Result :=
  execCdp (.ftouizs c d m) ⟨.toInt false true, .single, d, 0#5, m⟩ s

/-- FTOUIZD Sd, Dm: float to unsigned integer, towards zero (R132, R287). -/
def execFtouizd (c : Cond) (d : SReg) (m : DReg) (s : State) : Result :=
  execCdp (.ftouizd c d m) ⟨.toInt false true, .double, d, 0#5, ofD m⟩ s

/-- FTOSIS Sd, Sm: float to signed integer (R132, R288). -/
def execFtosis (c : Cond) (d : SReg) (m : SReg) (s : State) : Result :=
  execCdp (.ftosis c d m) ⟨.toInt true false, .single, d, 0#5, m⟩ s

/-- FTOSID Sd, Dm: float to signed integer (R132, R289). -/
def execFtosid (c : Cond) (d : SReg) (m : DReg) (s : State) : Result :=
  execCdp (.ftosid c d m) ⟨.toInt true false, .double, d, 0#5, ofD m⟩ s

/-- FTOSIZS Sd, Sm: float to signed integer, towards zero (R132, R290). -/
def execFtosizs (c : Cond) (d : SReg) (m : SReg) (s : State) : Result :=
  execCdp (.ftosizs c d m) ⟨.toInt true true, .single, d, 0#5, m⟩ s

/-- FTOSIZD Sd, Dm: float to signed integer, towards zero (R132, R291). -/
def execFtosizd (c : Cond) (d : SReg) (m : DReg) (s : State) : Result :=
  execCdp (.ftosizd c d m) ⟨.toInt true true, .double, d, 0#5, ofD m⟩ s

end Sys2Proof.Machine
end

