-- ==== Sys2Proof/Machine/DivSqrt.lean ====
section
/-! DEFINITION. Divide and square root (43_ds_divide_sqrt.md R303 to R306). -/

namespace Sys2Proof.Machine

/-- FDIVS Sd, Sn, Sm: Fn / Fm (R131, R303). -/
def execFdivs (c : Cond) (d n m : SReg) (s : State) : Result :=
  execCdp (.fdivs c d n m) ⟨.div, .single, d, n, m⟩ s

/-- FDIVD Dd, Dn, Dm: Fn / Fm (R131, R304). -/
def execFdivd (c : Cond) (d n m : DReg) (s : State) : Result :=
  execCdp (.fdivd c d n m) ⟨.div, .double, ofD d, ofD n, ofD m⟩ s

/-- FSQRTS Sd, Sm: square root (R132, R305). -/
def execFsqrts (c : Cond) (d m : SReg) (s : State) : Result :=
  execCdp (.fsqrts c d m) ⟨.sqrt, .single, d, 0#5, m⟩ s

/-- FSQRTD Dd, Dm: square root (R132, R306). -/
def execFsqrtd (c : Cond) (d m : DReg) (s : State) : Result :=
  execCdp (.fsqrtd c d m) ⟨.sqrt, .double, ofD d, 0#5, ofD m⟩ s

end Sys2Proof.Machine
end

