-- ==== Sys2Proof/Machine/Fmac.lean ====
section
/-! DEFINITION. The sixteen arithmetic instructions of the FMAC pipeline (41_fmac_arith.md R225 to R241). -/

namespace Sys2Proof.Machine

/-- FMACS Sd, Sn, Sm: Fd + Fn * Fm (R131, R234). -/
def execFmacs (c : Cond) (d n m : SReg) (s : State) : Result :=
  execCdp (.fmacs c d n m) ⟨.mac false false, .single, d, n, m⟩ s

/-- FMACD Dd, Dn, Dm: Fd + Fn * Fm (R131, R235). -/
def execFmacd (c : Cond) (d n m : DReg) (s : State) : Result :=
  execCdp (.fmacd c d n m) ⟨.mac false false, .double, ofD d, ofD n, ofD m⟩ s

/-- FNMACS Sd, Sn, Sm: Fd - Fn * Fm (R131, R236). -/
def execFnmacs (c : Cond) (d n m : SReg) (s : State) : Result :=
  execCdp (.fnmacs c d n m) ⟨.mac true false, .single, d, n, m⟩ s

/-- FNMACD Dd, Dn, Dm: Fd - Fn * Fm (R131, R237). -/
def execFnmacd (c : Cond) (d n m : DReg) (s : State) : Result :=
  execCdp (.fnmacd c d n m) ⟨.mac true false, .double, ofD d, ofD n, ofD m⟩ s

/-- FMSCS Sd, Sn, Sm: -Fd + Fn * Fm (R131, R238). -/
def execFmscs (c : Cond) (d n m : SReg) (s : State) : Result :=
  execCdp (.fmscs c d n m) ⟨.mac false true, .single, d, n, m⟩ s

/-- FMSCD Dd, Dn, Dm: -Fd + Fn * Fm (R131, R239). -/
def execFmscd (c : Cond) (d n m : DReg) (s : State) : Result :=
  execCdp (.fmscd c d n m) ⟨.mac false true, .double, ofD d, ofD n, ofD m⟩ s

/-- FNMSCS Sd, Sn, Sm: -Fd - Fn * Fm (R131, R240). -/
def execFnmscs (c : Cond) (d n m : SReg) (s : State) : Result :=
  execCdp (.fnmscs c d n m) ⟨.mac true true, .single, d, n, m⟩ s

/-- FNMSCD Dd, Dn, Dm: -Fd - Fn * Fm (R131, R241). -/
def execFnmscd (c : Cond) (d n m : DReg) (s : State) : Result :=
  execCdp (.fnmscd c d n m) ⟨.mac true true, .double, ofD d, ofD n, ofD m⟩ s

/-- FMULS Sd, Sn, Sm: Fn * Fm (R131, R230). -/
def execFmuls (c : Cond) (d n m : SReg) (s : State) : Result :=
  execCdp (.fmuls c d n m) ⟨.mul false, .single, d, n, m⟩ s

/-- FMULD Dd, Dn, Dm: Fn * Fm (R131, R231). -/
def execFmuld (c : Cond) (d n m : DReg) (s : State) : Result :=
  execCdp (.fmuld c d n m) ⟨.mul false, .double, ofD d, ofD n, ofD m⟩ s

/-- FNMULS Sd, Sn, Sm: -(Fn * Fm) (R131, R232). -/
def execFnmuls (c : Cond) (d n m : SReg) (s : State) : Result :=
  execCdp (.fnmuls c d n m) ⟨.mul true, .single, d, n, m⟩ s

/-- FNMULD Dd, Dn, Dm: -(Fn * Fm) (R131, R233). -/
def execFnmuld (c : Cond) (d n m : DReg) (s : State) : Result :=
  execCdp (.fnmuld c d n m) ⟨.mul true, .double, ofD d, ofD n, ofD m⟩ s

/-- FADDS Sd, Sn, Sm: Fn + Fm (R131, R225). -/
def execFadds (c : Cond) (d n m : SReg) (s : State) : Result :=
  execCdp (.fadds c d n m) ⟨.add false, .single, d, n, m⟩ s

/-- FADDD Dd, Dn, Dm: Fn + Fm (R131, R227). -/
def execFaddd (c : Cond) (d n m : DReg) (s : State) : Result :=
  execCdp (.faddd c d n m) ⟨.add false, .double, ofD d, ofD n, ofD m⟩ s

/-- FSUBS Sd, Sn, Sm: Fn - Fm (R131, R228). -/
def execFsubs (c : Cond) (d n m : SReg) (s : State) : Result :=
  execCdp (.fsubs c d n m) ⟨.add true, .single, d, n, m⟩ s

/-- FSUBD Dd, Dn, Dm: Fn - Fm (R131, R229). -/
def execFsubd (c : Cond) (d n m : DReg) (s : State) : Result :=
  execCdp (.fsubd c d n m) ⟨.add true, .double, ofD d, ofD n, ofD m⟩ s

end Sys2Proof.Machine
end

