-- ==== Sys2Proof/Machine/Transfer.lean ====
section
/-! DEFINITION. The shared operations of the loads, stores and register transfers (20_memory.md R91 to R105;
44_ls_memory.md R311 to R322; 45_ls_register_transfer.md R341, R360). -/

namespace Sys2Proof.Machine

/-- The mask of a list of S registers. -/
def listMask (regs : List (BitVec 5)) : Word := unionMask (regs.map (fun r => 1#32 <<< r.toNat))

/-- The transfers before the first word the memory system aborts, and that word's address if there is one
(20_memory.md R104, R105). -/
def State.untilAbort (s : State) (ws : List (BitVec 5 × Nat)) : List (BitVec 5 × Nat) × Option Nat :=
  match ws with
  | [] => ([], none)
  | (r, a) :: rest =>
    if s.abortsAt a then ([], some a)
    else
      let u := s.untilAbort rest
      ((r, a) :: u.1, u.2)

/-- Words loaded into registers, in order (44_ls_memory.md R323). -/
def State.loadWords (s : State) (ws : List (BitVec 5 × Nat)) : State :=
  match ws with
  | [] => s
  | (r, a) :: rest => (s.writeS r (s.readWord a)).loadWords rest

/-- Registers stored to words, in order (44_ls_memory.md R327). -/
def State.storeWords (s : State) (ws : List (BitVec 5 × Nat)) : State :=
  match ws with
  | [] => s
  | (r, a) :: rest => (s.writeWord a (s.readS r)).storeWords rest

/-- The loads before an aborted word: each register holds its old value or the loaded one (20_memory.md R105 (c)). -/
def State.partialLoad (s : State) (ws : List (BitVec 5 × Nat)) : State :=
  match ws with
  | [] => s
  | (r, a) :: rest =>
    let d := s.draw
    (if d.1 then d.2.writeS r (d.2.readWord a) else d.2).partialLoad rest

/-- The stores before an aborted word: each word holds its old value or the stored one (20_memory.md R105 (b)). -/
def State.partialStore (s : State) (ws : List (BitVec 5 × Nat)) : State :=
  match ws with
  | [] => s
  | (r, a) :: rest =>
    let d := s.draw
    (if d.1 then d.2.writeWord a (d.2.readS r) else d.2).partialStore rest

/-- The address checks of a transfer of `words` words at `start`: word aligned, inside the address space, and for a
store no word an instruction was fetched from (20_memory.md R96, R98, R111). All of it comes before the first word
moves or aborts: DESIGN CHOICE, log entry 45. -/
def State.addressRefusal (s : State) (start : Word) (words : Nat) (stores : List (BitVec 5 × Nat)) :
    Option Refusal :=
  if start.extractLsb' 0 2 != 0#2 then some .misaligned
  else if 2 ^ 32 < start.toNat + 4 * words then some .addressWrap
  else if stores.any (fun w => s.fetched.contains w.2) then some .storeToCode
  else none

/-- The base register written back, if the form does (44_ls_memory.md R322). -/
def State.writeBase (s : State) (rn : ArmReg) (wb : Option Word) : State :=
  match wb with
  | some v => s.writeArm rn v
  | none => s

/-- A load of `regs` from ascending words at `start`; `words` counts the extra word of an X form too
(44_ls_memory.md R311, R321, R326; 20_memory.md R104, R105). -/
def State.load (s : State) (regs : List (BitVec 5)) (start : Word) (words : Nat) (rn : ArmReg) (wb : Option Word) :
    Result :=
  let ws := withAddrs start.toNat regs
  match s.addressRefusal start words [] with
  | some r => .refused r
  | none =>
    match s.untilAbort ws with
    | (_, none) => .next (((s.loadWords ws).writeBase rn wb).advance)
    | (done, some a) => .fault (.dataAbort (BitVec.ofNat 32 a) (s.partialLoad done).closeWin)

/-- A store of `regs` to ascending words at `start` (44_ls_memory.md R311, R321, R326; 20_memory.md R104, R105). -/
def State.store (s : State) (regs : List (BitVec 5)) (start : Word) (words : Nat) (rn : ArmReg) (wb : Option Word) :
    Result :=
  let ws := withAddrs start.toNat regs
  match s.addressRefusal start words ws with
  | some r => .refused r
  | none =>
    match s.untilAbort ws with
    | (_, none) => .next (((s.storeWords ws).writeBase rn wb).advance)
    | (done, some a) => .fault (.dataAbort (BitVec.ofNat 32 a) (s.partialStore done).closeWin)

/-- A load of one register (44_ls_memory.md R311, R313 to R315). -/
def loadSingle (i : Instr) (u : Bool) (rn : ArmReg) (offset8 : BitVec 8) (regs : List (BitVec 5)) (s : State) :
    Result :=
  checked i .vfp
    (issueTransfer (listMask regs) 0#32 (fun t =>
      t.load regs (t.singleAddr rn u offset8) regs.length rn none)) s

/-- A store of one register (44_ls_memory.md R311, R313, R316, R317). -/
def storeSingle (i : Instr) (u : Bool) (rn : ArmReg) (offset8 : BitVec 8) (regs : List (BitVec 5)) (s : State) :
    Result :=
  checked i .vfp
    (issueTransfer 0#32 (listMask regs) (fun t =>
      t.store regs (t.singleAddr rn u offset8) regs.length rn none)) s

/-- A load multiple of `words` words (44_ls_memory.md R311, R321 to R325). -/
def loadMultiple (i : Instr) (mode : ListMode) (rn : ArmReg) (regs : List (BitVec 5)) (words : Nat) (s : State) :
    Result :=
  checked i .vfp
    (issueTransfer (listMask regs) 0#32 (fun t =>
      t.load regs (mode.start (t.readArm rn) words) words rn (mode.writeback (t.readArm rn) words))) s

/-- A store multiple of `words` words (44_ls_memory.md R311, R321, R322, R327 to R329). -/
def storeMultiple (i : Instr) (mode : ListMode) (rn : ArmReg) (regs : List (BitVec 5)) (words : Nat) (s : State) :
    Result :=
  checked i .vfp
    (issueTransfer 0#32 (listMask regs) (fun t =>
      t.store regs (mode.start (t.readArm rn) words) words rn (mode.writeback (t.readArm rn) words))) s

/-- A move to the coprocessor that writes `regs` (45_ls_register_transfer.md R341). -/
def moveIn (i : Instr) (regs : List (BitVec 5)) (f : State → State) (s : State) : Result :=
  checked i .vfp (issueTransfer (listMask regs) 0#32 (fun t => .next (f t).advance)) s

/-- A move to the core that reads `regs` (45_ls_register_transfer.md R341). -/
def moveOut (i : Instr) (regs : List (BitVec 5)) (f : State → State) (s : State) : Result :=
  checked i .vfp (issueTransfer 0#32 (listMask regs) (fun t => .next (f t).advance)) s

/-- A system register access (45_ls_register_transfer.md R341, R360). -/
def sysAccess (i : Instr) (reg : SysReg) (f : State → Result) (s : State) : Result :=
  checked i (.sys reg) (issueSerial (reg == .fpscr) f) s

end Sys2Proof.Machine
end

