-- ==== Sys2Proof/Machine/LsMemory.lean ====
section
/-! DEFINITION. The loads and stores: ten mnemonics, 22 forms (44_ls_memory.md R314 to R329). -/

namespace Sys2Proof.Machine

/-- FLDS: at Rn plus (`u`) or minus `offset8` words (R133, R314). -/
def execFlds (c : Cond) (u : Bool) (rn : ArmReg) (d : SReg) (offset8 : BitVec 8) (s : State) : Result :=
  loadSingle (.flds c u rn d offset8) u rn offset8 [d] s

/-- FLDD: at Rn plus (`u`) or minus `offset8` words (R133, R315). -/
def execFldd (c : Cond) (u : Bool) (rn : ArmReg) (d : DReg) (offset8 : BitVec 8) (s : State) : Result :=
  loadSingle (.fldd c u rn d offset8) u rn offset8 (dList s.bigEndian d 1) s

/-- FSTS: at Rn plus (`u`) or minus `offset8` words (R133, R316). -/
def execFsts (c : Cond) (u : Bool) (rn : ArmReg) (d : SReg) (offset8 : BitVec 8) (s : State) : Result :=
  storeSingle (.fsts c u rn d offset8) u rn offset8 [d] s

/-- FSTD: at Rn plus (`u`) or minus `offset8` words (R133, R317). -/
def execFstd (c : Cond) (u : Bool) (rn : ArmReg) (d : DReg) (offset8 : BitVec 8) (s : State) : Result :=
  storeSingle (.fstd c u rn d offset8) u rn offset8 (dList s.bigEndian d 1) s

/-- FLDMS, Increment After: `n` S registers, offset8 = n (R134, R323). -/
def execFldmsIa (c : Cond) (rn : ArmReg) (d : SReg) (n : BitVec 8) (s : State) : Result :=
  loadMultiple (.fldmsIa c rn d n) .ia rn (sList d n.toNat) n.toNat s

/-- FLDMS, Increment After, writeback: `n` S registers, offset8 = n (R134, R323). -/
def execFldmsIaWb (c : Cond) (rn : ArmReg) (d : SReg) (n : BitVec 8) (s : State) : Result :=
  loadMultiple (.fldmsIaWb c rn d n) .iaWb rn (sList d n.toNat) n.toNat s

/-- FLDMS, Decrement Before, writeback: `n` S registers, offset8 = n (R134, R323). -/
def execFldmsDbWb (c : Cond) (rn : ArmReg) (d : SReg) (n : BitVec 8) (s : State) : Result :=
  loadMultiple (.fldmsDbWb c rn d n) .dbWb rn (sList d n.toNat) n.toNat s

/-- FLDMD, Increment After: `n` D registers, offset8 = 2n (R134, R324). -/
def execFldmdIa (c : Cond) (rn : ArmReg) (d : DReg) (n : BitVec 7) (s : State) : Result :=
  loadMultiple (.fldmdIa c rn d n) .ia rn (dList s.bigEndian d n.toNat) (2 * n.toNat) s

/-- FLDMD, Increment After, writeback: `n` D registers, offset8 = 2n (R134, R324). -/
def execFldmdIaWb (c : Cond) (rn : ArmReg) (d : DReg) (n : BitVec 7) (s : State) : Result :=
  loadMultiple (.fldmdIaWb c rn d n) .iaWb rn (dList s.bigEndian d n.toNat) (2 * n.toNat) s

/-- FLDMD, Decrement Before, writeback: `n` D registers, offset8 = 2n (R134, R324). -/
def execFldmdDbWb (c : Cond) (rn : ArmReg) (d : DReg) (n : BitVec 7) (s : State) : Result :=
  loadMultiple (.fldmdDbWb c rn d n) .dbWb rn (dList s.bigEndian d n.toNat) (2 * n.toNat) s

/-- FLDMX, Increment After: `n` D registers, offset8 = 2n + 1 (R134, R325). -/
def execFldmxIa (c : Cond) (rn : ArmReg) (d : DReg) (n : BitVec 7) (s : State) : Result :=
  loadMultiple (.fldmxIa c rn d n) .ia rn (dList s.bigEndian d n.toNat) (2 * n.toNat + 1) s

/-- FLDMX, Increment After, writeback: `n` D registers, offset8 = 2n + 1 (R134, R325). -/
def execFldmxIaWb (c : Cond) (rn : ArmReg) (d : DReg) (n : BitVec 7) (s : State) : Result :=
  loadMultiple (.fldmxIaWb c rn d n) .iaWb rn (dList s.bigEndian d n.toNat) (2 * n.toNat + 1) s

/-- FLDMX, Decrement Before, writeback: `n` D registers, offset8 = 2n + 1 (R134, R325). -/
def execFldmxDbWb (c : Cond) (rn : ArmReg) (d : DReg) (n : BitVec 7) (s : State) : Result :=
  loadMultiple (.fldmxDbWb c rn d n) .dbWb rn (dList s.bigEndian d n.toNat) (2 * n.toNat + 1) s

/-- FSTMS, Increment After: `n` S registers, offset8 = n (R134, R327). -/
def execFstmsIa (c : Cond) (rn : ArmReg) (d : SReg) (n : BitVec 8) (s : State) : Result :=
  storeMultiple (.fstmsIa c rn d n) .ia rn (sList d n.toNat) n.toNat s

/-- FSTMS, Increment After, writeback: `n` S registers, offset8 = n (R134, R327). -/
def execFstmsIaWb (c : Cond) (rn : ArmReg) (d : SReg) (n : BitVec 8) (s : State) : Result :=
  storeMultiple (.fstmsIaWb c rn d n) .iaWb rn (sList d n.toNat) n.toNat s

/-- FSTMS, Decrement Before, writeback: `n` S registers, offset8 = n (R134, R327). -/
def execFstmsDbWb (c : Cond) (rn : ArmReg) (d : SReg) (n : BitVec 8) (s : State) : Result :=
  storeMultiple (.fstmsDbWb c rn d n) .dbWb rn (sList d n.toNat) n.toNat s

/-- FSTMD, Increment After: `n` D registers, offset8 = 2n (R134, R328). -/
def execFstmdIa (c : Cond) (rn : ArmReg) (d : DReg) (n : BitVec 7) (s : State) : Result :=
  storeMultiple (.fstmdIa c rn d n) .ia rn (dList s.bigEndian d n.toNat) (2 * n.toNat) s

/-- FSTMD, Increment After, writeback: `n` D registers, offset8 = 2n (R134, R328). -/
def execFstmdIaWb (c : Cond) (rn : ArmReg) (d : DReg) (n : BitVec 7) (s : State) : Result :=
  storeMultiple (.fstmdIaWb c rn d n) .iaWb rn (dList s.bigEndian d n.toNat) (2 * n.toNat) s

/-- FSTMD, Decrement Before, writeback: `n` D registers, offset8 = 2n (R134, R328). -/
def execFstmdDbWb (c : Cond) (rn : ArmReg) (d : DReg) (n : BitVec 7) (s : State) : Result :=
  storeMultiple (.fstmdDbWb c rn d n) .dbWb rn (dList s.bigEndian d n.toNat) (2 * n.toNat) s

/-- FSTMX, Increment After: `n` D registers, offset8 = 2n + 1 (R134, R329). -/
def execFstmxIa (c : Cond) (rn : ArmReg) (d : DReg) (n : BitVec 7) (s : State) : Result :=
  storeMultiple (.fstmxIa c rn d n) .ia rn (dList s.bigEndian d n.toNat) (2 * n.toNat + 1) s

/-- FSTMX, Increment After, writeback: `n` D registers, offset8 = 2n + 1 (R134, R329). -/
def execFstmxIaWb (c : Cond) (rn : ArmReg) (d : DReg) (n : BitVec 7) (s : State) : Result :=
  storeMultiple (.fstmxIaWb c rn d n) .iaWb rn (dList s.bigEndian d n.toNat) (2 * n.toNat + 1) s

/-- FSTMX, Decrement Before, writeback: `n` D registers, offset8 = 2n + 1 (R134, R329). -/
def execFstmxDbWb (c : Cond) (rn : ArmReg) (d : DReg) (n : BitVec 7) (s : State) : Result :=
  storeMultiple (.fstmxDbWb c rn d n) .dbWb rn (dList s.bigEndian d n.toNat) (2 * n.toNat + 1) s

end Sys2Proof.Machine
end

