-- ==== Sys2Proof/Machine/LsTransfer.lean ====
section
/-! DEFINITION. The thirteen register transfers (45_ls_register_transfer.md R343 to R359). -/

namespace Sys2Proof.Machine

/-- FMSR Sn, Rd; `sbz` is [6:5]:[3:0], Should Be Zero (R136, R343). -/
def execFmsr (c : Cond) (n : SReg) (rd : ArmReg) (sbz : BitVec 6) (s : State) : Result :=
  moveIn (.fmsr c n rd sbz) [n] (fun t => t.writeS n (t.readArm rd)) s

/-- FMRS Rd, Sn (R136, R344). -/
def execFmrs (c : Cond) (rd : ArmReg) (n : SReg) (sbz : BitVec 6) (s : State) : Result :=
  moveOut (.fmrs c rd n sbz) [n] (fun t => t.writeArm rd (t.readS n)) s

/-- FMDLR Dn, Rd: lower half (R136, R345). -/
def execFmdlr (c : Cond) (n : DReg) (rd : ArmReg) (sbz : BitVec 6) (s : State) : Result :=
  moveIn (.fmdlr c n rd sbz) [lowHalf n] (fun t => t.writeS (lowHalf n) (t.readArm rd)) s

/-- FMRDL Rd, Dn: lower half (R136, R347). -/
def execFmrdl (c : Cond) (rd : ArmReg) (n : DReg) (sbz : BitVec 6) (s : State) : Result :=
  moveOut (.fmrdl c rd n sbz) [lowHalf n] (fun t => t.writeArm rd (t.readS (lowHalf n))) s

/-- FMDHR Dn, Rd: upper half (R136, R346). -/
def execFmdhr (c : Cond) (n : DReg) (rd : ArmReg) (sbz : BitVec 6) (s : State) : Result :=
  moveIn (.fmdhr c n rd sbz) [highHalf n] (fun t => t.writeS (highHalf n) (t.readArm rd)) s

/-- FMRDH Rd, Dn: upper half (R136, R348). -/
def execFmrdh (c : Cond) (rd : ArmReg) (n : DReg) (sbz : BitVec 6) (s : State) : Result :=
  moveOut (.fmrdh c rd n sbz) [highHalf n] (fun t => t.writeArm rd (t.readS (highHalf n))) s

/-- FMXR reg, Rd; `sbz` is N:[6:5]:[3:0], Should Be Zero (R136, R357). -/
def execFmxr (c : Cond) (reg : SysReg) (rd : ArmReg) (sbz : BitVec 7) (s : State) : Result :=
  sysAccess (.fmxr c reg rd sbz) reg (fun t =>
    match t.writeSys reg (t.readArm rd) with
    | some t' => .next t'.advance
    | none => .refused .sbzWrite) s

/-- FMRX Rd, reg; with Rd = R15 and FPSCR the word is FMSTAT's (R136, R358). -/
def execFmrx (c : Cond) (rd : ArmReg) (reg : SysReg) (sbz : BitVec 7) (s : State) : Result :=
  sysAccess (.fmrx c rd reg sbz) reg (fun t =>
    let v := t.readSys reg
    .next (v.2.writeArm rd v.1).advance) s

/-- FMSTAT (R136, R359). -/
def execFmstat (c : Cond) (sbz : BitVec 7) (s : State) : Result :=
  sysAccess (.fmstat c sbz) .fpscr (fun t =>
    .next (t.setCpsr (Cpsr.setNzcv t.cpsr (Fpscr.nzcv t.fpscr))).advance) s

/-- FMDRR Dm, Rd, Rn (R138, R353). -/
def execFmdrr (c : Cond) (m : DReg) (rd rn : ArmReg) (s : State) : Result :=
  moveIn (.fmdrr c m rd rn) [lowHalf m, highHalf m] (fun t =>
    (t.writeS (lowHalf m) (t.readArm rd)).writeS (highHalf m) (t.readArm rn)) s

/-- FMRRD Rd, Rn, Dm (R138, R354). -/
def execFmrrd (c : Cond) (rd rn : ArmReg) (m : DReg) (s : State) : Result :=
  moveOut (.fmrrd c rd rn m) [lowHalf m, highHalf m] (fun t =>
    (t.writeArm rd (t.readS (lowHalf m))).writeArm rn (t.readS (highHalf m))) s

/-- FMSRR Sm and S(m+1), Rd, Rn (R138, R355). -/
def execFmsrr (c : Cond) (m : SReg) (rd rn : ArmReg) (s : State) : Result :=
  moveIn (.fmsrr c m rd rn) [m, m + 1#5] (fun t =>
    (t.writeS m (t.readArm rd)).writeS (m + 1#5) (t.readArm rn)) s

/-- FMRRS Rd, Rn, Sm and S(m+1) (R138, R356). -/
def execFmrrs (c : Cond) (rd rn : ArmReg) (m : SReg) (s : State) : Result :=
  moveOut (.fmrrs c rd rn m) [m, m + 1#5] (fun t =>
    (t.writeArm rd (t.readS m)).writeArm rn (t.readS (m + 1#5))) s

end Sys2Proof.Machine
end

