-- ==== Sys2Proof/Machine/Dispatch.lean ====
section
/-! DEFINITION. One arm per instruction: its meaning. -/

namespace Sys2Proof.Machine

def exec (i : Instr) (s : State) : Host.Outcome State Fault Refusal :=
  match i with
  | .fmacs c d n m => Sys2Proof.Machine.execFmacs c d n m s
  | .fmacd c d n m => Sys2Proof.Machine.execFmacd c d n m s
  | .fnmacs c d n m => Sys2Proof.Machine.execFnmacs c d n m s
  | .fnmacd c d n m => Sys2Proof.Machine.execFnmacd c d n m s
  | .fmscs c d n m => Sys2Proof.Machine.execFmscs c d n m s
  | .fmscd c d n m => Sys2Proof.Machine.execFmscd c d n m s
  | .fnmscs c d n m => Sys2Proof.Machine.execFnmscs c d n m s
  | .fnmscd c d n m => Sys2Proof.Machine.execFnmscd c d n m s
  | .fmuls c d n m => Sys2Proof.Machine.execFmuls c d n m s
  | .fmuld c d n m => Sys2Proof.Machine.execFmuld c d n m s
  | .fnmuls c d n m => Sys2Proof.Machine.execFnmuls c d n m s
  | .fnmuld c d n m => Sys2Proof.Machine.execFnmuld c d n m s
  | .fadds c d n m => Sys2Proof.Machine.execFadds c d n m s
  | .faddd c d n m => Sys2Proof.Machine.execFaddd c d n m s
  | .fsubs c d n m => Sys2Proof.Machine.execFsubs c d n m s
  | .fsubd c d n m => Sys2Proof.Machine.execFsubd c d n m s
  | .fdivs c d n m => Sys2Proof.Machine.execFdivs c d n m s
  | .fdivd c d n m => Sys2Proof.Machine.execFdivd c d n m s
  | .fcpys c d m => Sys2Proof.Machine.execFcpys c d m s
  | .fcpyd c d m => Sys2Proof.Machine.execFcpyd c d m s
  | .fabss c d m => Sys2Proof.Machine.execFabss c d m s
  | .fabsd c d m => Sys2Proof.Machine.execFabsd c d m s
  | .fnegs c d m => Sys2Proof.Machine.execFnegs c d m s
  | .fnegd c d m => Sys2Proof.Machine.execFnegd c d m s
  | .fsqrts c d m => Sys2Proof.Machine.execFsqrts c d m s
  | .fsqrtd c d m => Sys2Proof.Machine.execFsqrtd c d m s
  | .fcmps c d m => Sys2Proof.Machine.execFcmps c d m s
  | .fcmpd c d m => Sys2Proof.Machine.execFcmpd c d m s
  | .fcmpes c d m => Sys2Proof.Machine.execFcmpes c d m s
  | .fcmped c d m => Sys2Proof.Machine.execFcmped c d m s
  | .fcmpzs c d sbz => Sys2Proof.Machine.execFcmpzs c d sbz s
  | .fcmpzd c d sbz => Sys2Proof.Machine.execFcmpzd c d sbz s
  | .fcmpezs c d sbz => Sys2Proof.Machine.execFcmpezs c d sbz s
  | .fcmpezd c d sbz => Sys2Proof.Machine.execFcmpezd c d sbz s
  | .fcvtds c d m => Sys2Proof.Machine.execFcvtds c d m s
  | .fcvtsd c d m => Sys2Proof.Machine.execFcvtsd c d m s
  | .fuitos c d m => Sys2Proof.Machine.execFuitos c d m s
  | .fuitod c d m => Sys2Proof.Machine.execFuitod c d m s
  | .fsitos c d m => Sys2Proof.Machine.execFsitos c d m s
  | .fsitod c d m => Sys2Proof.Machine.execFsitod c d m s
  | .ftouis c d m => Sys2Proof.Machine.execFtouis c d m s
  | .ftouid c d m => Sys2Proof.Machine.execFtouid c d m s
  | .ftouizs c d m => Sys2Proof.Machine.execFtouizs c d m s
  | .ftouizd c d m => Sys2Proof.Machine.execFtouizd c d m s
  | .ftosis c d m => Sys2Proof.Machine.execFtosis c d m s
  | .ftosid c d m => Sys2Proof.Machine.execFtosid c d m s
  | .ftosizs c d m => Sys2Proof.Machine.execFtosizs c d m s
  | .ftosizd c d m => Sys2Proof.Machine.execFtosizd c d m s
  | .flds c u rn d offset8 => Sys2Proof.Machine.execFlds c u rn d offset8 s
  | .fldd c u rn d offset8 => Sys2Proof.Machine.execFldd c u rn d offset8 s
  | .fsts c u rn d offset8 => Sys2Proof.Machine.execFsts c u rn d offset8 s
  | .fstd c u rn d offset8 => Sys2Proof.Machine.execFstd c u rn d offset8 s
  | .fldmsIa c rn d n => Sys2Proof.Machine.execFldmsIa c rn d n s
  | .fldmsIaWb c rn d n => Sys2Proof.Machine.execFldmsIaWb c rn d n s
  | .fldmsDbWb c rn d n => Sys2Proof.Machine.execFldmsDbWb c rn d n s
  | .fldmdIa c rn d n => Sys2Proof.Machine.execFldmdIa c rn d n s
  | .fldmdIaWb c rn d n => Sys2Proof.Machine.execFldmdIaWb c rn d n s
  | .fldmdDbWb c rn d n => Sys2Proof.Machine.execFldmdDbWb c rn d n s
  | .fldmxIa c rn d n => Sys2Proof.Machine.execFldmxIa c rn d n s
  | .fldmxIaWb c rn d n => Sys2Proof.Machine.execFldmxIaWb c rn d n s
  | .fldmxDbWb c rn d n => Sys2Proof.Machine.execFldmxDbWb c rn d n s
  | .fstmsIa c rn d n => Sys2Proof.Machine.execFstmsIa c rn d n s
  | .fstmsIaWb c rn d n => Sys2Proof.Machine.execFstmsIaWb c rn d n s
  | .fstmsDbWb c rn d n => Sys2Proof.Machine.execFstmsDbWb c rn d n s
  | .fstmdIa c rn d n => Sys2Proof.Machine.execFstmdIa c rn d n s
  | .fstmdIaWb c rn d n => Sys2Proof.Machine.execFstmdIaWb c rn d n s
  | .fstmdDbWb c rn d n => Sys2Proof.Machine.execFstmdDbWb c rn d n s
  | .fstmxIa c rn d n => Sys2Proof.Machine.execFstmxIa c rn d n s
  | .fstmxIaWb c rn d n => Sys2Proof.Machine.execFstmxIaWb c rn d n s
  | .fstmxDbWb c rn d n => Sys2Proof.Machine.execFstmxDbWb c rn d n s
  | .fmsr c n rd sbz => Sys2Proof.Machine.execFmsr c n rd sbz s
  | .fmrs c rd n sbz => Sys2Proof.Machine.execFmrs c rd n sbz s
  | .fmdlr c n rd sbz => Sys2Proof.Machine.execFmdlr c n rd sbz s
  | .fmrdl c rd n sbz => Sys2Proof.Machine.execFmrdl c rd n sbz s
  | .fmdhr c n rd sbz => Sys2Proof.Machine.execFmdhr c n rd sbz s
  | .fmrdh c rd n sbz => Sys2Proof.Machine.execFmrdh c rd n sbz s
  | .fmxr c reg rd sbz => Sys2Proof.Machine.execFmxr c reg rd sbz s
  | .fmrx c rd reg sbz => Sys2Proof.Machine.execFmrx c rd reg sbz s
  | .fmstat c sbz => Sys2Proof.Machine.execFmstat c sbz s
  | .fmdrr c m rd rn => Sys2Proof.Machine.execFmdrr c m rd rn s
  | .fmrrd c rd rn m => Sys2Proof.Machine.execFmrrd c rd rn m s
  | .fmsrr c m rd rn => Sys2Proof.Machine.execFmsrr c m rd rn s
  | .fmrrs c rd rn m => Sys2Proof.Machine.execFmrrs c rd rn m s

end Sys2Proof.Machine
end

