-- ==== Sys2Proof/Machine/Fetch.lean ====
section
/-! DEFINITION. The fetch of an instruction and what a word that is architecturally Undefined does
(20_memory.md R110, R111; 60_exceptions.md R433, R434). -/

namespace Sys2Proof.Machine

/-- The address of the next instruction, a word address. -/
def State.fetchAddr (s : State) : Nat := s.pc.toNat / 4 * 4

/-- The next instruction's word was written by a VFP store (20_memory.md R111). -/
def State.fetchRefused (s : State) : Bool := s.stored.contains s.fetchAddr

/-- What the decoder reads from the four bytes at the program counter. -/
def State.fetchDecoded (s : State) : Decoded :=
  (decodeBytes [s.readByte s.fetchAddr, s.readByte (s.fetchAddr + 1), s.readByte (s.fetchAddr + 2),
    s.readByte (s.fetchAddr + 3)]).1

/-- The state in which the fetched instruction executes: the fetch is noted (20_memory.md R111). -/
def State.fetch (s : State) : State := s.noteFetch s.fetchAddr

/-- An architecturally Undefined VFP word: cancelled if it has a condition and the condition fails, else the
Undefined Instruction exception, whatever EX and the window are (60_exceptions.md R433, R434, R454). -/
def State.illegal (s : State) (c : Option Cond) : Result :=
  match c with
  | some c => if condPassed c s.cpsr then .next s.takeUndefined else .next s.advance
  | none => .next s.takeUndefined

/-- A program word placed at the program counter from outside the machine (log entry 7). -/
def State.placeProgramWord (s : State) (w : Word) : State :=
  { s.placeWord s.fetchAddr w with stored := s.stored.filter (fun a => a != s.fetchAddr) }

end Sys2Proof.Machine
end

