-- ==== Sys2Proof/Machine/Step.lean ====
section
/-! DEFINITION. One step: the instruction at the program counter is fetched, decoded and executed. -/

namespace Sys2Proof.Machine

/-- One step of the machine (00_scope.md R9, R10): fetch, decode, execute. The outcomes are a next state, a fault and a
refusal. -/
def step (s : State) : Host.Outcome State Fault Refusal :=
  if s.fetchRefused then .refused .fetchOfStored
  else
    match s.fetchDecoded with
    | .instr i => exec i s.fetch
    | .undefined c _ => s.fetch.illegal c
    | .notVfp => .refused .notVfp
    | .truncated => .refused .notVfp

/-- The state with the instruction of an opcode-table row stored where the next step fetches it: at the program
counter, and as a word no VFP store wrote. -/
def State.withFetchWord (s : State) (nbits w : Nat) : State := s.placeProgramWord (BitVec.ofNat 32 (w % 2 ^ nbits))

end Sys2Proof.Machine
end

