-- ==== Sys2Proof/Safety.lean ====
section
/-! DEFINITION. What counts as a safe run and the terms the statements are written in: the conditions under which an
instruction executes normally, the invariant of the machine, the addresses of a load or store, the results in RunFast
mode and what a frame leaves unchanged. No meaning uses anything of this file. -/

namespace Sys2Proof.Machine

/-! ### When an instruction executes normally -/

/-- The condition passes, access is granted and the coprocessor is not in the exceptional state
(60_exceptions.md R454 steps 1 to 7). -/
abbrev State.Ready (s : State) (c : Cond) : Prop :=
  condPassed c s.cpsr = true ∧ s.accessible .vfp = true ∧ s.exceptional = false

/-- A CDP instruction executes normally: ready, well formed and with a legal meaning under the FPSCR of the state
(40_cdp_common.md R168, R169). -/
abbrev State.Runs (s : State) (i : Instr) (c : Cdp) : Prop :=
  cdpOf i = some c ∧ i.WellFormed ∧ c.refusal s.fpscr = none ∧ s.Ready i.cond

/-- The instruction is one iteration (40_cdp_common.md R161, R162): compares and conversions, LEN = 0, or Fd in
bank 0. -/
abbrev Cdp.Scalar (c : Cdp) (w : Word) : Prop :=
  legalLenStride w = true ∧ (c.op.canVector = false ∨ Fpscr.len w = 0 ∨ inBank0 c.p c.d = true)

/-- A safe step: it answers a next state. -/
abbrev State.Safe (s : State) : Prop := ∃ t, step s = .next t

/-- The S registers of a list were written since reset: what a program owes before it reads them (10_state.md R36;
log entry 2). -/
abbrev State.Initialised (s : State) (regs : List (BitVec 5)) : Prop := ∀ r ∈ regs, s.isWritten r = true

/-- What an instruction accesses: a system register, or the coprocessor (60_exceptions.md R450 to R453). -/
def accessOf (i : Instr) : Access :=
  match i with
  | .fmxr _ reg _ _ => .sys reg
  | .fmrx _ _ reg _ => .sys reg
  | .fmstat _ _ => .sys .fpscr
  | _ => .vfp

/-- The instruction is admitted: its condition passes, access is granted and its form is not Unpredictable
(60_exceptions.md R454 steps 1 to 5). -/
abbrev State.Admits (s : State) (i : Instr) : Prop :=
  condPassed i.cond s.cpsr = true ∧ s.accessible (accessOf i) = true ∧ i.WellFormed

/-- The instruction is no trigger instruction of a closed window: it executes normally or the window is open
(40_cdp_common.md R168, 60_exceptions.md R421). -/
abbrev State.NoClosedTrigger (s : State) : Prop := s.exceptional = false ∨ s.win ≠ .closed

/-- Some iteration of the vector Fd names a register that some iteration of the vector `r` names
(40_cdp_common.md R169). -/
abbrev Cdp.SharesVector (c : Cdp) (w : Word) (r : BitVec 5) : Prop :=
  ∃ k j, k ≤ Fpscr.len w ∧ j ≤ Fpscr.len w ∧ stepReg c.p (strideOf w) c.d k = stepReg c.p (strideOf w) r j

/-- A source operand of the instruction steps: Fn of an operation that reads it, or Fm outside bank 0
(40_cdp_common.md R161, R165). -/
abbrev Cdp.SteppingSource (c : Cdp) (r : BitVec 5) : Prop :=
  (c.op.readsN = true ∧ r = c.n) ∨ (inBank0 c.p c.m = false ∧ r = c.m)

/-- A vector instruction that does not wrap: more than one iteration, and length times stride fits the bank
(40_cdp_common.md R161, R168). -/
abbrev Cdp.VectorFits (c : Cdp) (w : Word) : Prop :=
  legalLenStride w = true ∧ c.op.canVector = true ∧ Fpscr.len w ≠ 0 ∧ inBank0 c.p c.d = false ∧
    (Fpscr.len w + 1) * strideOf w ≤ (match c.p with | .single => 8 | .double => 4)

/-! ### The invariant of the machine -/

/-- What every step keeps: the memory is in canonical form; the Should-Be-Zero bits of FPSCR and FPEXC are zero
(10_state.md R53); the detection window is open only in the exceptional state (60_exceptions.md R431); the mode is
one of the seven (R450); the program counter is a word address (R39). -/
structure State.Inv (s : State) : Prop where
  memWf : Memory.wf s.mem
  fpscrSbz : s.fpscr &&& Fpscr.sbzMask = 0#32
  fpexcSbz : s.fpexc &&& Fpexc.sbzMask = 0#32
  openEx : s.win ≠ .closed → Fpexc.ex s.fpexc = true
  modeLegal : Cpsr.mode s.cpsr ∈ Mode.all
  pcAligned : s.pc.extractLsb' 0 2 = 0#2

/-! ### What a frame leaves unchanged -/

/-- The six cumulative flags of FPSCR (10_state.md R54). -/
def Fpscr.cumulativeMask : Word := 0x0000009F#32

/-- N, Z, C and V of FPSCR or of CPSR. -/
def nzcvMask : Word := 0xF0000000#32

/-- What no load, store, transfer or operation changes: the exception registers, the configuration, the record of
fetched words. -/
structure SameEnv (s t : State) : Prop where
  r14Und : t.r14Und = s.r14Und
  spsrUnd : t.spsrUnd = s.spsrUnd
  bigEndian : t.bigEndian = s.bigEndian
  highVectors : t.highVectors = s.highVectors
  cpAccess : t.cpAccess = s.cpAccess
  aborts : t.aborts = s.aborts
  fetched : t.fetched = s.fetched
  level : t.level = s.level

/-- Everything but the VFP registers, the program counter, FPSCR, FPEXC, FPINST, FPINST2, the window, the marks of
written registers and the count of free values is unchanged: the ARM registers, CPSR and every byte of memory are. -/
structure SameCore (s t : State) : Prop where
  env : SameEnv s t
  arm : t.arm = s.arm
  cpsr : t.cpsr = s.cpsr
  mem : t.mem = s.mem
  stored : t.stored = s.stored

/-- The system registers other than FPSCR, and the window, are unchanged. -/
structure SameSystem (s t : State) : Prop where
  fpexc : t.fpexc = s.fpexc
  fpinst : t.fpinst = s.fpinst
  fpinst2 : t.fpinst2 = s.fpinst2
  fpinst2Defined : t.fpinst2Defined = s.fpinst2Defined
  win : t.win = s.win

/-! ### Loads and stores -/

/-- What a load or store transfers: its registers in the order of ascending words from `start`, how many words its
address range has, and the base register with what it becomes (44_ls_memory.md R313, R320, R321). -/
structure Transfer where
  regs : List (BitVec 5)
  start : Word
  words : Nat
  rn : ArmReg
  wb : Option Word
deriving DecidableEq, Repr

/-- The transfer of a single register at a base and offset (44_ls_memory.md R313). -/
def State.single (s : State) (u : Bool) (rn : ArmReg) (off : BitVec 8) (regs : List (BitVec 5)) : Transfer :=
  ⟨regs, s.singleAddr rn u off, regs.length, rn, none⟩

/-- The transfer of a register list (44_ls_memory.md R321). -/
def State.multiple (s : State) (mode : ListMode) (rn : ArmReg) (regs : List (BitVec 5)) (words : Nat) : Transfer :=
  ⟨regs, mode.start (s.readArm rn) words, words, rn, mode.writeback (s.readArm rn) words⟩

/-- The transfer of a load, if the instruction is one (44_ls_memory.md R314, R315, R323 to R325). -/
def State.loadOf (s : State) (i : Instr) : Option Transfer :=
  match i with
  | .flds _ u rn d off => some (s.single u rn off [d])
  | .fldd _ u rn d off => some (s.single u rn off (dList s.bigEndian d 1))
  | .fldmsIa _ rn d n => some (s.multiple .ia rn (sList d n.toNat) n.toNat)
  | .fldmsIaWb _ rn d n => some (s.multiple .iaWb rn (sList d n.toNat) n.toNat)
  | .fldmsDbWb _ rn d n => some (s.multiple .dbWb rn (sList d n.toNat) n.toNat)
  | .fldmdIa _ rn d n => some (s.multiple .ia rn (dList s.bigEndian d n.toNat) (2 * n.toNat))
  | .fldmdIaWb _ rn d n => some (s.multiple .iaWb rn (dList s.bigEndian d n.toNat) (2 * n.toNat))
  | .fldmdDbWb _ rn d n => some (s.multiple .dbWb rn (dList s.bigEndian d n.toNat) (2 * n.toNat))
  | .fldmxIa _ rn d n => some (s.multiple .ia rn (dList s.bigEndian d n.toNat) (2 * n.toNat + 1))
  | .fldmxIaWb _ rn d n => some (s.multiple .iaWb rn (dList s.bigEndian d n.toNat) (2 * n.toNat + 1))
  | .fldmxDbWb _ rn d n => some (s.multiple .dbWb rn (dList s.bigEndian d n.toNat) (2 * n.toNat + 1))
  | _ => none

/-- The transfer of a store, if the instruction is one (44_ls_memory.md R316, R317, R327 to R329). -/
def State.storeOf (s : State) (i : Instr) : Option Transfer :=
  match i with
  | .fsts _ u rn d off => some (s.single u rn off [d])
  | .fstd _ u rn d off => some (s.single u rn off (dList s.bigEndian d 1))
  | .fstmsIa _ rn d n => some (s.multiple .ia rn (sList d n.toNat) n.toNat)
  | .fstmsIaWb _ rn d n => some (s.multiple .iaWb rn (sList d n.toNat) n.toNat)
  | .fstmsDbWb _ rn d n => some (s.multiple .dbWb rn (sList d n.toNat) n.toNat)
  | .fstmdIa _ rn d n => some (s.multiple .ia rn (dList s.bigEndian d n.toNat) (2 * n.toNat))
  | .fstmdIaWb _ rn d n => some (s.multiple .iaWb rn (dList s.bigEndian d n.toNat) (2 * n.toNat))
  | .fstmdDbWb _ rn d n => some (s.multiple .dbWb rn (dList s.bigEndian d n.toNat) (2 * n.toNat))
  | .fstmxIa _ rn d n => some (s.multiple .ia rn (dList s.bigEndian d n.toNat) (2 * n.toNat + 1))
  | .fstmxIaWb _ rn d n => some (s.multiple .iaWb rn (dList s.bigEndian d n.toNat) (2 * n.toNat + 1))
  | .fstmxDbWb _ rn d n => some (s.multiple .dbWb rn (dList s.bigEndian d n.toNat) (2 * n.toNat + 1))
  | _ => none

/-- The instruction stores to memory (44_ls_memory.md R316, R317, R327 to R329). -/
def isStore (i : Instr) : Bool :=
  match i with
  | .fsts .. | .fstd .. | .fstmsIa .. | .fstmsIaWb .. | .fstmsDbWb .. | .fstmdIa .. | .fstmdIaWb .. | .fstmdDbWb ..
  | .fstmxIa .. | .fstmxIaWb .. | .fstmxDbWb .. => true
  | _ => false

/-- The registers, first and count, that an FSTMX saves (44_ls_memory.md R329). -/
def savedBy (i : Instr) : Option (DReg × BitVec 7) :=
  match i with
  | .fstmxIa _ _ d n | .fstmxIaWb _ _ d n | .fstmxDbWb _ _ d n => some (d, n)
  | _ => none

/-- The registers, first and count, that an FLDMX restores (44_ls_memory.md R325). -/
def restoredBy (i : Instr) : Option (DReg × BitVec 7) :=
  match i with
  | .fldmxIa _ _ d n | .fldmxIaWb _ _ d n | .fldmxDbWb _ _ d n => some (d, n)
  | _ => none

/-- The registers of a transfer with the addresses of their words. -/
def Transfer.pairs (f : Transfer) : List (BitVec 5 × Nat) := withAddrs f.start.toNat f.regs

/-- The S registers a move to the coprocessor writes, each with its value
(45_ls_register_transfer.md R343, R345, R346, R353, R355). -/
def State.movedIn (s : State) (i : Instr) : Option (List (BitVec 5 × Word)) :=
  match i with
  | .fmsr _ n rd _ => some [(n, s.readArm rd)]
  | .fmdlr _ n rd _ => some [(lowHalf n, s.readArm rd)]
  | .fmdhr _ n rd _ => some [(highHalf n, s.readArm rd)]
  | .fmdrr _ m rd rn => some [(lowHalf m, s.readArm rd), (highHalf m, s.readArm rn)]
  | .fmsrr _ m rd rn => some [(m, s.readArm rd), (m + 1#5, s.readArm rn)]
  | _ => none

/-- The ARM registers a move to the core writes, each with the S register it is written from
(45_ls_register_transfer.md R344, R347, R348, R354, R356). -/
def movedOut (i : Instr) : Option (List (ArmReg × BitVec 5)) :=
  match i with
  | .fmrs _ rd n _ => some [(rd, n)]
  | .fmrdl _ rd n _ => some [(rd, lowHalf n)]
  | .fmrdh _ rd n _ => some [(rd, highHalf n)]
  | .fmrrd _ rd rn m => some [(rd, lowHalf m), (rn, highHalf m)]
  | .fmrrs _ rd rn m => some [(rd, m), (rn, m + 1#5)]
  | _ => none

/-- The S registers a load or a move to the coprocessor writes (60_exceptions.md R424). -/
def State.transferWrites (s : State) (i : Instr) : List (BitVec 5) :=
  match s.loadOf i with
  | some f => f.regs
  | none => ((s.movedIn i).getD []).map (·.1)

/-- The S registers a store or a move to the core reads (60_exceptions.md R424). -/
def State.transferReads (s : State) (i : Instr) : List (BitVec 5) :=
  match s.storeOf i with
  | some f => f.regs
  | none => ((movedOut i).getD []).map (·.2)

/-- Some register of the list is in the mask. -/
def touches (regs : List (BitVec 5)) (mask : Word) : Prop := ∃ r ∈ regs, mask.getLsbD r.toNat = true

/-- A load, a store or a register transfer has a hazard with the locked registers of the window
(60_exceptions.md R424). -/
def State.Hazard (s : State) (i : Instr) (dst src : Word) : Prop :=
  touches (s.transferWrites i) (dst ||| src) ∨ touches (s.transferReads i) dst

/-- What a move to the coprocessor that moves `ws` leaves: those registers, the program counter, nothing else. -/
structure State.MovedIn (s t : State) (ws : List (BitVec 5 × Word)) : Prop where
  readS : ∀ r, t.readS r = (ws.lookup r).getD (s.readS r)
  written : ∀ r, t.isWritten r = ((ws.lookup r).isSome || s.isWritten r)
  fpscr : t.fpscr = s.fpscr
  system : SameSystem s t
  core : SameCore s t
  pc : t.pc = s.pc + 4#32

/-- What a move to the core that moves `ws` leaves: those ARM registers, the program counter, nothing else. -/
structure State.MovedOut (s t : State) (ws : List (ArmReg × BitVec 5)) : Prop where
  readArm : ∀ r, r ≠ 15#4 → t.readArm r = ((ws.lookup r).map s.readS).getD (s.readArm r)
  sreg : t.sreg = s.sreg
  written : t.written = s.written
  fpscr : t.fpscr = s.fpscr
  system : SameSystem s t
  env : SameEnv s t
  cpsr : t.cpsr = s.cpsr
  mem : t.mem = s.mem
  stored : t.stored = s.stored
  pc : t.pc = s.pc + 4#32

/-- What the base register and the other ARM registers hold after a load or store
(44_ls_memory.md R313, R321, R322). -/
def Transfer.baseAfter (f : Transfer) (s t : State) : Prop :=
  ∀ r, r ≠ 15#4 → t.readArm r = if r = f.rn then f.wb.getD (s.readArm r) else s.readArm r

/-- What a load leaves: each register holds the word at its address, the base is written back if the form does,
every other register, every byte of memory and every system register is as before. -/
structure State.Loaded (s t : State) (f : Transfer) : Prop where
  words : ∀ w ∈ f.pairs, t.readS w.1 = s.readWord w.2
  marked : ∀ w ∈ f.pairs, t.isWritten w.1 = true
  others : ∀ r, r ∉ f.regs → t.readS r = s.readS r ∧ t.isWritten r = s.isWritten r
  base : f.baseAfter s t
  mem : t.mem = s.mem
  stored : t.stored = s.stored
  fpscr : t.fpscr = s.fpscr
  system : SameSystem s t
  env : SameEnv s t
  cpsr : t.cpsr = s.cpsr
  pc : t.pc = s.pc + 4#32

/-- What a store leaves: each word holds its register, every byte outside the words stored is as before, the base is
written back if the form does, every register of the coprocessor is as before. -/
structure State.Stored (s t : State) (f : Transfer) : Prop where
  words : ∀ w ∈ f.pairs, t.readWord w.2 = s.readS w.1
  others : ∀ a, (∀ w ∈ f.pairs, a < w.2 ∨ w.2 + 4 ≤ a) → t.readByte a = s.readByte a
  base : f.baseAfter s t
  sreg : t.sreg = s.sreg
  written : t.written = s.written
  fpscr : t.fpscr = s.fpscr
  system : SameSystem s t
  env : SameEnv s t
  cpsr : t.cpsr = s.cpsr
  pc : t.pc = s.pc + 4#32

/-- The address range is word aligned, inside the address space, and no word of it aborts
(20_memory.md R96, R98, R104). -/
abbrev State.Reachable (s : State) (f : Transfer) : Prop :=
  f.start.extractLsb' 0 2 = 0#2 ∧ f.start.toNat + 4 * f.words ≤ 2 ^ 32 ∧ ∀ w ∈ f.pairs, s.abortsAt w.2 = false

/-- No word of the transfer is one an instruction was fetched from (20_memory.md R111). -/
abbrev State.NotCode (s : State) (f : Transfer) : Prop := ∀ w ∈ f.pairs, w.2 ∉ s.fetched

/-! ### Arithmetic -/

/-- The floating-point source operands of a CDP instruction in its source precision, Fd of the multiply-accumulate
family included (40_cdp_common.md R193). -/
def State.operands (s : State) (c : Cdp) : List Fp :=
  (if c.op.readsD then [s.readFp c.p c.d] else []) ++ (if c.op.readsN then [s.readFp c.p c.n] else []) ++
    (match c.op with
    | .fromInt _ => []
    | .cmpz _ => []
    | _ => [s.readFp c.p c.m])

/-- A scalar CDP instruction has bounced: `t` is the exceptional state `s` enters (60_exceptions.md R415). The only
bit of FPSCR that may differ is IDC (40_cdp_common.md R185). -/
structure State.Bounced (s t : State) (i : Instr) (c : Cdp) : Prop where
  ex : Fpexc.ex t.fpexc = true
  vecitr : Fpexc.vecitr t.fpexc = 0b111#3
  en : Fpexc.en t.fpexc = Fpexc.en s.fpexc
  fp2v : Fpexc.fp2v t.fpexc = Fpexc.fp2v s.fpexc
  fpinst : t.fpinst = alwaysWord (encode i)
  fpinst2 : t.fpinst2 = s.fpinst2
  win : t.win = .opened c.dstMask c.srcMask true
  sreg : t.sreg = s.sreg
  written : t.written = s.written
  fpscr : t.fpscr &&& ~~~0x00000080#32 = s.fpscr &&& ~~~0x00000080#32
  pc : t.pc = s.pc + 4#32
  core : SameCore s t

/-- The state after an operation that wrote a register, raised flags and advanced. -/
def State.wrote (s : State) (p : Prec) (d : BitVec 5) (r : BitVec 64 × Cumulative) : State :=
  ((s.writeReg p d r.1).raise r.2).advance

/-! ### RunFast mode (40_cdp_common.md R190) -/

/-- An operand in RunFast mode: a subnormal one is +0 (40_cdp_common.md R185). -/
def runFastOperand (p : Prec) (a : Fp) : Fp := if a.isSub p then fpZero false else a

/-- The pattern and the flags of an operation in RunFast mode: the default NaN if an operand is a NaN, with IOC for a
signaling one, else the rounded outcome; IDC if an operand was flushed (40_cdp_common.md R185, R188, R191). -/
def runFastResult (p q : Prec) (w : Word) (ops : List Fp) (o : Outcome) : BitVec 64 × Cumulative :=
  let idc := ops.any (Fp.isSub p)
  if ops.any (Fp.isNan p) then (pack q (defaultNan q), { idc := idc, ioc := ops.any (Fp.isSnan p) })
  else
    let r := finish q true (Fpscr.rmode w) o
    (pack q r.val, { r.flags with idc := idc })

/-- FNMUL in RunFast mode: the sign of the rounded product inverted, but for the default NaN and a flushed product
(41_fmac_arith.md R222, R223). -/
def runFastNegated (p : Prec) (w : Word) (ops : List Fp) (o : Outcome) : BitVec 64 × Cumulative :=
  let idc := ops.any (Fp.isSub p)
  if ops.any (Fp.isNan p) then (pack p (defaultNan p), { idc := idc, ioc := ops.any (Fp.isSnan p) })
  else
    let r := finish p true (Fpscr.rmode w) o
    (pack p (if r.flags.ioc || r.flags.ufc then r.val else r.val.flip true), { r.flags with idc := idc })

/-- The multiply-accumulate family in RunFast mode: `a` is the addend, `n` and `m` the factors; the product is rounded,
its sign inverted if `negP`, and the sum with the addend, its sign inverted if `negA`, is rounded again
(40_cdp_common.md R201, 41_fmac_arith.md R224). -/
def runFastMac (p : Prec) (w : Word) (negP negA : Bool) (a n m : Fp) : BitVec 64 × Cumulative :=
  let ops := [a, n, m]
  let idc := ops.any (Fp.isSub p)
  if ops.any (Fp.isNan p) then (pack p (defaultNan p), { idc := idc, ioc := ops.any (Fp.isSnan p) })
  else
    let product := finish p true (Fpscr.rmode w) (mulOutcome p (runFastOperand p n) (runFastOperand p m))
    if product.val.isNan p then (pack p (defaultNan p), { product.flags with idc := idc })
    else
      let sum := finish p true (Fpscr.rmode w)
        (addOutcome p (Fpscr.rmode w) ((runFastOperand p a).flip negA) (product.val.flip negP))
      (pack p sum.val, { product.flags.or sum.flags with idc := idc })

/-- A compare in RunFast mode: the four flags and the cumulative flags; a subnormal operand is +0 if FCMP_FZ_FLUSH
(40_cdp_common.md R186, 42_fmac_copy_compare_convert.md R258). -/
def runFastCompare (p : Prec) (e : Bool) (a b : Fp) : BitVec 4 × Cumulative :=
  let flushed (x : Fp) : Fp := if Config.fcmpFzFlush && x.isSub p then fpZero false else x
  ((compareFp p (flushed a) (flushed b)).nzcv,
    { idc := Config.fcmpFzFlush && (a.isSub p || b.isSub p)
      ioc := a.isSnan p || b.isSnan p || (e && (a.isNan p || b.isNan p)) })

/-- The state after a compare. -/
def State.compared (s : State) (r : BitVec 4 × Cumulative) : State :=
  ((s.setFpscr (Fpscr.setNzcv s.fpscr r.1)).raise r.2).advance

/-- One iteration after another with nothing that bounces: iterations `k ..`, `left` of them, under FPSCR `w`
(40_cdp_common.md R167, R170). -/
def State.vectorRun (s : State) (c : Cdp) (w : Word) (k left : Nat) : State :=
  match left with
  | 0 => s
  | rest + 1 =>
    let ck := c.at (c.shape w) w k
    let r := iterH c.op c.p w (s.source ck)
    State.vectorRun (s.complete ck r.2.1 r.2.2) c w (k + 1) rest

/-! ### Model level A -/

/-- The support code on `t` gives what `r` gives: if `r` answers a state, it returns with its registers and FPSCR; if `r`
is a user trap, it calls the handler of that trap with those registers and flags (but for IDC, which the bounce may
have drawn) and otherwise the state of the trap entry (60_exceptions.md R443, R446; log entries 30, 41 and 42). -/
def State.SupportGives (t : State) (r : Result) : Prop :=
  match r with
  | .next v => ∃ u, t.supportCode = .next u ∧ u.sreg = v.sreg ∧ u.fpscr = v.fpscr
  | .fault (.userTrap kind v) =>
    ∃ u, t.supportCode = .fault (.userTrap kind u) ∧ u.sreg = v.sreg ∧
      u.fpscr ||| 0x00000080#32 = v.fpscr ||| 0x00000080#32 ∧ u.fpexc = t.fpexc &&& 0x6FFFFF72#32 ∧
      u.arm = t.arm ∧ u.mem = t.mem ∧ u.r14Und = t.pc + 4#32 ∧ u.spsrUnd = t.cpsr
  | _ => False

/-- The iterations of `c` from `k` on at level A, under the control bits of FPSCR `w`, from what the iterations before
`k` left in `s` (60_exceptions.md R443). -/
def State.archFrom (s : State) (c : Cdp) (w : Word) (k : Nat) : Result :=
  (s.vectorRun c w 0 k).archIterations c (c.shape w) w k ((c.shape w).iters - k)

end Sys2Proof.Machine
end

