-- ==== Sys2Proof/Certificates/Slice0/Obligations.lean ====
section
/-! DEFINITION. The statements for the provers. Each has its witness in `Sys2Proof/Tests/Slice0.lean`. -/

open Sys2Proof Sys2Proof.Machine

/-! ### Encoding -/

/-- Words of the spec's encoding vectors, one or more of each family, decode to the instruction they stand for
(95_test_vectors.md Part C). -/
def Obligations.DecodeReadsSpecWords : Prop :=
  decode 0xEE450A2F#32 = .instr (.fmacs .al 1#5 10#5 31#5) ∧
  decode 0xEE359B08#32 = .instr (.faddd .al 9#4 5#4 8#4) ∧
  decode 0xEEC9CA27#32 = .instr (.fdivs .al 25#5 18#5 15#5) ∧
  decode 0xEEF18A6A#32 = .instr (.fnegs .al 17#5 21#5) ∧
  decode 0xEEB40BC4#32 = .instr (.fcmped .al 0#4 4#4) ∧
  decode 0xEEF75BC5#32 = .instr (.fcvtsd .al 11#5 5#4) ∧
  decode 0xEEBDABCB#32 = .instr (.ftosizd .al 20#5 11#4) ∧
  decode 0xED534A04#32 = .instr (.flds .al false 3#4 9#5 4#8) ∧
  decode 0xED3D0B21#32 = .instr (.fldmxDbWb .al 13#4 0#4 16#7) ∧
  decode 0xECA5AA0C#32 = .instr (.fstmsIaWb .al 5#4 20#5 12#8) ∧
  decode 0xEE2B2B10#32 = .instr (.fmdhr .al 11#4 2#4 0#6) ∧
  decode 0xEEE83A10#32 = .instr (.fmxr .al .fpexc 3#4 0#7) ∧
  decode 0xEEF1FA10#32 = .instr (.fmstat .al 0#7) ∧
  decode 0xEC4BAA32#32 = .instr (.fmsrr .al 5#5 10#4 11#4)

/-- Every well-formed instruction is read back from its word, with every operand at every value
(30_encoding.md R121 to R142).
Rests on log entry 26. -/
def Obligations.DecodeOfEncode : Prop :=
  ∀ i : Instr, i.WellFormed → decode (encode i) = .instr i

/-- A word that decodes to an instruction is that instruction's word: no bit of an encoding is dropped
(30_encoding.md R125 to R138).
Rests on log entry 26. -/
def Obligations.EncodeOfDecode : Prop :=
  ∀ (w : Word) (i : Instr), decode w = .instr i → encode i = w

/-! ### The step -/

/-- When the bytes at the program counter decode to an instruction, the step is that instruction executed in the state
that differs only in the note of the fetch (00_scope.md R9, R10, 20_memory.md R111).
Rests on log entry 12. -/
def Obligations.StepRunsDecodedInstruction : Prop :=
  ∀ (s : State) (i : Instr), s.fetchAddr ∉ s.stored → decode (s.readWord s.fetchAddr) = .instr i →
    step s = exec i s.fetch ∧
      s.fetch = { s with fetched := s.fetch.fetched } ∧
      ∀ a, a ∈ s.fetch.fetched ↔ a = s.fetchAddr ∨ a ∈ s.fetched

/-- A word that is architecturally Undefined takes the Undefined Instruction exception, whatever EX and the window are,
unless its condition fails; the words with condition 1111 of coprocessors 10 and 11 are such words and have no
condition; a word of no VFP format is refused, and so is a word a VFP store wrote
(60_exceptions.md R433, R434; 30_encoding.md R122, R140; 20_memory.md R111).
Rests on log entries 12 and 26. -/
def Obligations.UndefinedWordTraps : Prop :=
  (∀ (s : State) (c : Cond) (u : Illegal), s.fetchAddr ∉ s.stored →
    decode (s.readWord s.fetchAddr) = .undefined (some c) u →
    step s = .next (if condPassed c s.cpsr then s.fetch.takeUndefined else s.fetch.advance)) ∧
  (∀ s : State, s.fetchAddr ∉ s.stored → field (s.readWord s.fetchAddr) 28 4 = 0b1111#4 →
    field (s.readWord s.fetchAddr) 9 3 = 0b101#3 →
    field (s.readWord s.fetchAddr) 24 4 ∈ [0b1100#4, 0b1101#4, 0b1110#4] →
    step s = .next s.fetch.takeUndefined) ∧
  (∀ s : State, s.fetchAddr ∉ s.stored → field (s.readWord s.fetchAddr) 9 3 ≠ 0b101#3 → step s = .refused .notVfp) ∧
  (∀ s : State, s.fetchAddr ∈ s.stored → step s = .refused .fetchOfStored)

/-- An instruction whose condition fails is cancelled: only the program counter changes, whatever access, EX and the
window are (00_scope.md R20, 60_exceptions.md R422, R454). -/
def Obligations.CancelledInstructionOnlyAdvances : Prop :=
  ∀ (i : Instr) (s : State), condPassed i.cond s.cpsr = false → exec i s = .next s.advance

/-- A VFP instruction that CP_ACCESS denies, that FPEXC.EN = 0 disables or that needs a privileged mode takes the
Undefined Instruction exception with no other effect, whatever EX and the window are
(10_state.md R52, 60_exceptions.md R451, R452, R453). The source says it of EN = 0 for FPSCR only: that every other
instruction but a system register access traps then is the choice of R453 and D17 from general knowledge (log entry
46), the denied access that of R452 and D18 (log entry 7), the number of User mode the family's (log entry 36).
Rests on log entries 7 and 36 and 46. -/
def Obligations.InaccessibleInstructionTraps : Prop :=
  ∀ (i : Instr) (s : State), condPassed i.cond s.cpsr = true →
    (s.cpAccess = .denied ∨
      (s.cpAccess = .privilegedOnly ∧ Cpsr.mode s.cpsr = Mode.user) ∨
      (Fpexc.en s.fpexc = false ∧ accessOf i ∈ [.vfp, .sys .fpscr]) ∨
      (Fpexc.en s.fpexc = false ∧ Cpsr.mode s.cpsr = Mode.user) ∨
      (Cpsr.mode s.cpsr = Mode.user ∧ accessOf i ∈ [.sys .fpexc, .sys .fpinst, .sys .fpinst2])) →
    exec i s = .next s.takeUndefined

/-- The entry to the Undefined Instruction exception and the return that retries the instruction: the link register
holds the address of the next instruction, the saved status the old one, the mode is Undefined in ARM state with IRQ
disabled, the rest of the status is unchanged, the program counter is at the vector, the window is closed, nothing else
changes; the return restores the program counter and the status (60_exceptions.md R428, R436, R437).
Rests on log entry 28. -/
def Obligations.UndefinedEntryAndReturn : Prop :=
  ∀ s : State,
    let t := s.takeUndefined
    t.r14Und = s.pc + 4#32 ∧ t.spsrUnd = s.cpsr ∧
    Cpsr.mode t.cpsr = Mode.undefined ∧ Cpsr.t t.cpsr = false ∧ Cpsr.i t.cpsr = true ∧
    Cpsr.f t.cpsr = Cpsr.f s.cpsr ∧ t.cpsr &&& 0xFFFFFF00#32 = s.cpsr &&& 0xFFFFFF00#32 ∧
    t.pc = (if s.highVectors then 0xFFFF0004#32 else 0x00000004#32) ∧ t.win = .closed ∧
    t = { s with r14Und := t.r14Und, spsrUnd := t.spsrUnd, cpsr := t.cpsr, pc := t.pc, win := t.win } ∧
    t.returnFromUndefined.pc = s.pc ∧ t.returnFromUndefined.cpsr = s.cpsr

/-- A form that is Unpredictable whatever the state holds is refused by name once its condition passes and access is
granted; so are, for a CDP instruction that is no trigger of a closed window, LEN and STRIDE with no legal meaning; such a
trigger traps instead at level H (30_encoding.md R141, 60_exceptions.md R421, R435, 40_cdp_common.md R168 (a)).
Rests on log entries 20 and 21. -/
def Obligations.UnpredictableFormIsRefused : Prop :=
  ∀ (i : Instr) (s : State), condPassed i.cond s.cpsr = true → s.accessible (accessOf i) = true →
    (∀ why, i.unpredictable = some why → exec i s = .refused (.unpredictable why)) ∧
    (i.WellFormed → (∃ c, cdpOf i = some c) →
      (Fpscr.stride s.fpscr ∈ [0b01#2, 0b10#2] ∨ (Fpscr.stride s.fpscr = 0b11#2 ∧ Fpscr.len s.fpscr = 0)) →
      (s.NoClosedTrigger → exec i s = .refused .illegalLenStride) ∧
      (¬ s.NoClosedTrigger → s.level = .hardware → exec i s = .next s.takeUndefined))

/-! ### Short vectors -/

/-- Table 3-7: a vector instruction that is no trigger of a closed window is refused as wrapping exactly when its length
times its stride exceeds the bank of 8 single-precision or 4 double-precision registers
(10_state.md R60, 40_cdp_common.md R168 (b)).
Rests on log entry 21. -/
def Obligations.VectorThatWrapsIsRefused : Prop :=
  ∀ (i : Instr) (c : Cdp) (s : State), cdpOf i = some c → i.WellFormed → condPassed i.cond s.cpsr = true →
    s.accessible .vfp = true → s.NoClosedTrigger → legalLenStride s.fpscr = true → c.op.canVector = true →
    Fpscr.len s.fpscr ≠ 0 → inBank0 c.p c.d = false →
    (exec i s = .refused .vectorWraps ↔
      (match c.p with | .single => 8 | .double => 4) <
        (Fpscr.len s.fpscr + 1) * (if Fpscr.stride s.fpscr = 0b11#2 then 2 else 1))

/-- A vector instruction whose destination vector shares a register with a stepping source vector, Fn or Fm, without being
it, is refused, in the exceptional state too; one whose destination vector is or shares nothing with each stepping source
vector completes or bounces, Fm in bank 0 being never in its way (40_cdp_common.md R169, 60_exceptions.md R435).
Rests on log entry 21. -/
def Obligations.OverlappingVectorsAreRefused : Prop :=
  ∀ (i : Instr) (c : Cdp) (s : State), cdpOf i = some c → i.WellFormed → condPassed i.cond s.cpsr = true →
    s.accessible .vfp = true → c.VectorFits s.fpscr →
    (∀ r, c.SteppingSource r → r ≠ c.d → c.SharesVector s.fpscr r →
      exec i s = .refused .vectorOverlap) ∧
    (s.exceptional = false → (∀ r, c.SteppingSource r → r = c.d ∨ ¬ c.SharesVector s.fpscr r) →
      ∃ t, exec i s = .next t)

/-- A stepping operand keeps its bank and advances its index modulo the bank size (40_cdp_common.md R164).
Rests on log entry 40. -/
def Obligations.SteppingStaysInTheBank : Prop :=
  ∀ (stride : Nat) (r : BitVec 5) (k : Nat),
    (stepReg .single stride r k).toNat = 8 * (r.toNat / 8) + (r.toNat + k * stride) % 8 ∧
    (stepReg .double stride r k).toNat = 4 * (r.toNat / 4) + (r.toNat + k * stride) % 4

/-- D registers are aliases of pairs of S registers, for reading and for writing either way (10_state.md R31). -/
def Obligations.DoubleRegistersAliasPairs : Prop :=
  ∀ (s : State) (d : DReg) (v : BitVec 64) (r : BitVec 5) (x : Word),
    ((lowHalf d).toNat = 2 * d.toNat ∧ (highHalf d).toNat = 2 * d.toNat + 1) ∧
    s.readD d = s.readS (highHalf d) ++ s.readS (lowHalf d) ∧
    (s.writeD d v).readD d = v ∧
    (s.writeD d v).readS r =
      (if r.toNat = 2 * d.toNat then v.extractLsb' 0 32
       else if r.toNat = 2 * d.toNat + 1 then v.extractLsb' 32 32 else s.readS r) ∧
    (s.writeS r x).readD d =
      (if r.toNat = 2 * d.toNat then s.readS (highHalf d) ++ x
       else if r.toNat = 2 * d.toNat + 1 then x ++ s.readS (lowHalf d) else s.readD d)

/-- Every element of a vector that nothing makes bounce is the scalar operation on the values the registers held before
the instruction, every other register is unchanged and the coprocessor does not enter the exceptional state
(40_cdp_common.md R164, R165, R167, R169).
Rests on log entry 33. -/
def Obligations.VectorElementsAreIndependent : Prop :=
  ∀ (i : Instr) (c : Cdp) (s : State), s.Runs i c → c.op.canVector = true →
    let sh := c.shape s.fpscr
    (∀ k, k < sh.iters → (iterH c.op c.p s.fpscr (s.source (c.at sh s.fpscr k))).1.clear = true) →
    ∃ t, exec i s = .next t ∧
      (∀ k v, k < sh.iters → (iterH c.op c.p s.fpscr (s.source (c.at sh s.fpscr k))).2.1 = .reg v →
        t.readReg c.p (c.at sh s.fpscr k).d =
          (match c.p with
          | .single => (v.setWidth 32).setWidth 64
          | .double => v)) ∧
      (∀ r : BitVec 5, (c.dstMasks sh s.fpscr 0 sh.iters).getLsbD r.toNat = false → t.readS r = s.readS r) ∧
      t.fpexc = s.fpexc ∧ t.pc = s.pc + 4#32

/-! ### The operations in RunFast mode (40_cdp_common.md R190) -/

/-- FADDS, FADDD, FSUBS and FSUBD complete with the rounded sum, a subtraction being the addition of the second operand
with its sign inverted (41_fmac_arith.md R221, R225 to R229).
Rests on log entry 33. -/
def Obligations.AddSubtractInRunFast : Prop :=
  ∀ (s : State) (i : Instr) (sub : Bool) (p : Prec) (d n m : BitVec 5), s.Runs i ⟨.add sub, p, d, n, m⟩ →
    Cdp.Scalar ⟨.add sub, p, d, n, m⟩ s.fpscr → Fpscr.runFast s.fpscr = true →
    exec i s = .next (s.wrote p d (runFastResult p p s.fpscr [s.readFp p n, s.readFp p m]
      (addOutcome p (Fpscr.rmode s.fpscr) (runFastOperand p (s.readFp p n))
        ((runFastOperand p (s.readFp p m)).flip sub))))

/-- FMULS, FMULD, FNMULS and FNMULD complete with the rounded product, FNMUL with its sign inverted
(41_fmac_arith.md R222, R223, R230 to R233).
Rests on log entry 33. -/
def Obligations.MultiplyInRunFast : Prop :=
  ∀ (s : State) (i : Instr) (neg : Bool) (p : Prec) (d n m : BitVec 5), s.Runs i ⟨.mul neg, p, d, n, m⟩ →
    Cdp.Scalar ⟨.mul neg, p, d, n, m⟩ s.fpscr → Fpscr.runFast s.fpscr = true →
    exec i s = .next (s.wrote p d ((if neg then runFastNegated p else runFastResult p p) s.fpscr
      [s.readFp p n, s.readFp p m]
      (mulOutcome p (runFastOperand p (s.readFp p n)) (runFastOperand p (s.readFp p m)))))

/-- The eight multiply-accumulate instructions complete with the product and the sum rounded one after the other:
Fd + Fn * Fm, Fd - Fn * Fm, -Fd + Fn * Fm and -Fd - Fn * Fm (41_fmac_arith.md R224, R234 to R241).
Rests on log entry 33. -/
def Obligations.MultiplyAccumulateInRunFast : Prop :=
  ∀ (s : State) (i : Instr) (negP negA : Bool) (p : Prec) (d n m : BitVec 5), s.Runs i ⟨.mac negP negA, p, d, n, m⟩ →
    Cdp.Scalar ⟨.mac negP negA, p, d, n, m⟩ s.fpscr → Fpscr.runFast s.fpscr = true →
    exec i s = .next (s.wrote p d
      (runFastMac p s.fpscr negP negA (s.readFp p d) (s.readFp p n) (s.readFp p m)))

/-- FDIVS, FDIVD, FSQRTS and FSQRTD complete with the rounded quotient or square root
(43_ds_divide_sqrt.md R301 to R306).
Rests on log entry 33. -/
def Obligations.DivideAndSquareRootInRunFast : Prop :=
  (∀ (s : State) (i : Instr) (p : Prec) (d n m : BitVec 5), s.Runs i ⟨.div, p, d, n, m⟩ →
    Cdp.Scalar ⟨.div, p, d, n, m⟩ s.fpscr → Fpscr.runFast s.fpscr = true →
    exec i s = .next (s.wrote p d (runFastResult p p s.fpscr [s.readFp p n, s.readFp p m]
      (divOutcome p (runFastOperand p (s.readFp p n)) (runFastOperand p (s.readFp p m)))))) ∧
  (∀ (s : State) (i : Instr) (p : Prec) (d n m : BitVec 5), s.Runs i ⟨.sqrt, p, d, n, m⟩ →
    Cdp.Scalar ⟨.sqrt, p, d, n, m⟩ s.fpscr → Fpscr.runFast s.fpscr = true →
    exec i s = .next (s.wrote p d (runFastResult p p s.fpscr [s.readFp p m]
      (sqrtOutcome p (runFastOperand p (s.readFp p m))))))

/-- FCPYS, FCPYD, FABSS, FABSD, FNEGS and FNEGD move the bits of their source with the sign bit as it is, cleared or
inverted, in every mode but IXE = 1, and raise no flag (42_fmac_copy_compare_convert.md R251 to R256). -/
def Obligations.CopiesMoveBits : Prop :=
  ∀ (s : State) (c : Cond), s.Ready c → Fpscr.ixe s.fpscr = false → legalLenStride s.fpscr = true →
    (∀ d m : SReg, Fpscr.len s.fpscr = 0 ∨ d.toNat < 8 →
      exec (.fcpys c d m) s = .next (s.writeS d (s.readS m)).advance ∧
      exec (.fabss c d m) s = .next (s.writeS d (s.readS m &&& 0x7FFFFFFF#32)).advance ∧
      exec (.fnegs c d m) s = .next (s.writeS d (s.readS m ^^^ 0x80000000#32)).advance) ∧
    (∀ d m : DReg, Fpscr.len s.fpscr = 0 ∨ d.toNat < 4 →
      exec (.fcpyd c d m) s = .next (s.writeD d (s.readD m)).advance ∧
      exec (.fabsd c d m) s = .next (s.writeD d (s.readD m &&& 0x7FFFFFFFFFFFFFFF#64)).advance ∧
      exec (.fnegd c d m) s = .next (s.writeD d (s.readD m ^^^ 0x8000000000000000#64)).advance)

/-- The eight compares complete with N, Z, C and V of their operands, or of Fd and +0, written to FPSCR
(42_fmac_copy_compare_convert.md R258 to R266, 40_cdp_common.md R186).
Rests on log entry 32. -/
def Obligations.ComparesInRunFast : Prop :=
  (∀ (s : State) (i : Instr) (e : Bool) (p : Prec) (d n m : BitVec 5), s.Runs i ⟨.cmp e, p, d, n, m⟩ →
    Fpscr.runFast s.fpscr = true →
    exec i s = .next (s.compared (runFastCompare p e (s.readFp p d) (s.readFp p m)))) ∧
  (∀ (s : State) (i : Instr) (e : Bool) (p : Prec) (d n m : BitVec 5), s.Runs i ⟨.cmpz e, p, d, n, m⟩ →
    Fpscr.runFast s.fpscr = true →
    exec i s = .next (s.compared (runFastCompare p e (s.readFp p d) (fpZero false))))

/-- The four flags after a compare of two patterns that are not subnormal, in RunFast mode: less N, equal Z and C,
greater C, unordered C and V; no other register changes (10_state.md R55). -/
def Obligations.CompareSetsFlags : Prop :=
  ∀ (s : State) (i : Instr) (e : Bool) (p : Prec) (d n m : BitVec 5), s.Runs i ⟨.cmp e, p, d, n, m⟩ →
    Fpscr.runFast s.fpscr = true → (s.readFp p d).isSub p = false → (s.readFp p m).isSub p = false →
    ∃ t, exec i s = .next t ∧ t.sreg = s.sreg ∧
      Fpscr.nzcv t.fpscr =
        (if (s.readFp p d).isNan p ∨ (s.readFp p m).isNan p then 0b0011#4
         else if (s.readFp p d).key p < (s.readFp p m).key p then 0b1000#4
         else if (s.readFp p d).key p = (s.readFp p m).key p then 0b0110#4
         else 0b0010#4)

/-- FCVTDS and FCVTSD complete with the value in the other format (42_fmac_copy_compare_convert.md R275, R276).
Rests on log entry 33. -/
def Obligations.PrecisionConversionsInRunFast : Prop :=
  ∀ (s : State) (i : Instr) (p : Prec) (d n m : BitVec 5), s.Runs i ⟨.cvt, p, d, n, m⟩ →
    Fpscr.runFast s.fpscr = true →
    exec i s = .next (s.wrote p.other d (runFastResult p p.other s.fpscr [s.readFp p m]
      (cvtOutcome p p.other (runFastOperand p (s.readFp p m)))))

/-- FUITOS, FUITOD, FSITOS and FSITOD complete in every mode but IXE = 1 with the integer of the S register rounded
(42_fmac_copy_compare_convert.md R271 to R274).
Rests on log entry 33. -/
def Obligations.IntegerToFloatConversions : Prop :=
  ∀ (s : State) (i : Instr) (signed : Bool) (p : Prec) (d n m : BitVec 5), s.Runs i ⟨.fromInt signed, p, d, n, m⟩ →
    Fpscr.ixe s.fpscr = false →
    let r := finish p (Fpscr.fz s.fpscr) (Fpscr.rmode s.fpscr) (intOutcome (asInt signed (s.readS m)))
    exec i s = .next (s.wrote p d (pack p r.val, r.flags))

/-- The eight float-to-integer conversions complete with the rounded integer, saturated with IOC where it does not fit;
the Z forms round towards zero (42_fmac_copy_compare_convert.md R279, R280, R284 to R291).
Rests on log entry 33. -/
def Obligations.FloatToIntegerInRunFast : Prop :=
  ∀ (s : State) (i : Instr) (signed towardsZero : Bool) (p : Prec) (d n m : BitVec 5),
    s.Runs i ⟨.toInt signed towardsZero, p, d, n, m⟩ → Fpscr.runFast s.fpscr = true →
    let r := ftoiResult p signed (if towardsZero then .zero else Fpscr.rmode s.fpscr)
      (runFastOperand p (s.readFp p m))
    exec i s = .next (s.wrote .single d
      (r.1.setWidth 64, { r.2 with idc := (s.readFp p m).isSub p }))

/-- In RunFast mode no CDP instruction bounces for a floating-point reason: it completes and the coprocessor does not
enter the exceptional state; the bounce of an illegal instruction remains (40_cdp_common.md R190). -/
def Obligations.RunFastNeverBounces : Prop :=
  (∀ (s : State) (i : Instr) (c : Cdp), s.Runs i c →
    bitAt s.fpscr 24 = true → bitAt s.fpscr 25 = true → field s.fpscr 8 5 = 0#5 → bitAt s.fpscr 15 = false →
    ∃ t, exec i s = .next t ∧ t.fpexc = s.fpexc ∧ t.fpinst = s.fpinst ∧ t.win = s.win ∧ t.pc = s.pc + 4#32) ∧
  (∀ (s : State) (u : Illegal), Fpscr.runFast s.fpscr = true → s.fetchAddr ∉ s.stored →
    decode (s.readWord s.fetchAddr) = .undefined (some .al) u → step s = .next s.fetch.takeUndefined)

/-- What a CDP instruction that executes normally leaves unchanged in every mode, bouncing or not: the registers no
iteration writes, memory, the core's registers, FPEXC.EN and FP2V, FPINST2, the control bits of FPSCR and, but for a
compare, N, Z, C and V; the cumulative flags are sticky (40_cdp_common.md R170, 10_state.md R62,
60_exceptions.md R415). -/
def Obligations.ArithmeticFrame : Prop :=
  ∀ (s : State) (i : Instr) (c : Cdp), s.Runs i c →
    let sh := c.shape s.fpscr
    ∃ t, exec i s = .next t ∧ SameCore s t ∧ t.pc = s.pc + 4#32 ∧
      (∀ r : BitVec 5, (c.dstMasks sh s.fpscr 0 sh.iters).getLsbD r.toNat = false →
        t.readS r = s.readS r ∧ t.isWritten r = s.isWritten r) ∧
      Fpexc.en t.fpexc = Fpexc.en s.fpexc ∧ Fpexc.fp2v t.fpexc = Fpexc.fp2v s.fpexc ∧ t.fpinst2 = s.fpinst2 ∧
      t.fpscr &&& Fpscr.controlMask = s.fpscr &&& Fpscr.controlMask ∧
      s.fpscr &&& Fpscr.cumulativeMask &&& ~~~t.fpscr = 0#32 ∧
      (c.op.writesD = true → t.fpscr &&& nzcvMask = s.fpscr &&& nzcvMask)

/-! ### Bounces -/

/-- A scalar arithmetic instruction with a NaN operand and DN = 0, or a subnormal operand and FZ = 0, bounces with
FPEXC.INV set: the registers, FPSCR and memory are as before and the exceptional state is entered
(40_cdp_common.md R193, 60_exceptions.md R412, R415, R416, R423). With IXE = 1 too a compare, FCVTSD or float-to-integer
conversion sets INV by R412 and R416, where its own rule returns at IXE.
Rests on log entry 17. -/
def Obligations.InputExceptionBounces : Prop :=
  ∀ (s : State) (i : Instr) (c : Cdp), s.Runs i c → c.Scalar s.fpscr → c.op.isCopy = false →
    ((Fpscr.dn s.fpscr = false ∧ ∃ a ∈ s.operands c, a.isNan c.p = true) ∨
      (Fpscr.fz s.fpscr = false ∧ ∃ a ∈ s.operands c, a.isSub c.p = true)) →
    ∃ t, exec i s = .next t ∧ s.Bounced t i c ∧ bitAt t.fpexc 7 = true

/-- With IXE = 1 every scalar arithmetic instruction, the compares and conversions included, bounces
(40_cdp_common.md R192). -/
def Obligations.InexactEnabledBounces : Prop :=
  ∀ (s : State) (i : Instr) (c : Cdp), s.Runs i c → c.Scalar s.fpscr → c.op.isCopy = false →
    Fpscr.ixe s.fpscr = true → ∃ t, exec i s = .next t ∧ s.Bounced t i c

/-- A vector that bounces at iteration `k` keeps the results and flags of the iterations before it and does none of the
later ones; VECITR counts those, FPINST holds the word of the exceptional iteration and the pretrigger slot is free
exactly if it is the last (60_exceptions.md R415, R423). -/
def Obligations.VectorBounceKeepsEarlierIterations : Prop :=
  ∀ (s : State) (i : Instr) (c : Cdp) (k : Nat), s.Runs i c →
    let w := s.fpscr
    let sh := c.shape w
    let at_ (j : Nat) := iterH c.op c.p w ((s.vectorRun c w 0 j).source (c.at sh w j))
    k < sh.iters → (∀ j, j < k → (at_ j).1.clear = true) → (at_ k).1.must = true → Fpscr.ide w = false →
    ∃ t, exec i s = .next t ∧ t.sreg = (s.vectorRun c w 0 k).sreg ∧ t.fpscr = (s.vectorRun c w 0 k).fpscr ∧
      Fpexc.ex t.fpexc = true ∧ Fpexc.vecitr t.fpexc = vecitrOf (sh.iters - k - 1) ∧
      t.fpinst = (c.at sh w k).exceptionalWord sh (encode i) ∧
      t.win = .opened (c.dstMasks sh w k (sh.iters - k)) (c.srcMasks sh w k (sh.iters - k))
        (decide (k + 1 = sh.iters)) ∧
      SameCore s t ∧ t.pc = s.pc + 4#32

/-- VECITR is the number of remaining iterations less one, modulo 8, and a bounce writes it
(10_state.md R68). -/
def Obligations.VecitrCountsRemaining : Prop :=
  ([7, 0, 1, 2, 3, 4, 5, 6] = (List.range 8).map (fun remaining => (vecitrOf remaining).toNat)) ∧
  ∀ (s : State) (word : Word) (c : Cdp) (sh : Shape) (w : Word) (k : Nat) (inSub : Bool) (fl : BounceFlags),
    sh.iters ≤ 8 → k < sh.iters →
    (Fpexc.vecitr (s.bounce word c sh w k inSub fl).fpexc).toNat = (sh.iters - 1 - k + 7) % 8 ∧
      Fpexc.remaining (s.bounce word c sh w k inSub fl).fpexc = sh.iters - 1 - k

/-- With EX set and the window closed, every admitted instruction, whatever LEN and STRIDE hold, but a vector instruction
with overlapping vectors (which is refused) and an access to FPEXC, FPINST, FPINST2, FPSID or a feature register bounces
at level H: nothing of it executes, the Undefined Instruction exception is taken and EX stays set; an access to FPSCR
does so in the open window too (60_exceptions.md R421, R422, R427, R435; 40_cdp_common.md R168, R169).
Rests on log entry 21. -/
def Obligations.TriggerInstructionBounces : Prop :=
  ∀ (s : State) (i : Instr), s.level = .hardware → s.Admits i → Fpexc.ex s.fpexc = true →
    (∀ c, cdpOf i = some c → c.overlapping s.fpscr = false) →
    ((accessOf i = .vfp ∧ s.win = .closed) ∨ accessOf i = .sys .fpscr) →
    exec i s = .next s.takeUndefined ∧ Fpexc.ex s.takeUndefined.fpexc = true

/-- In the open window a load, store or register transfer with a hazard is the trigger; without one it is the trigger or
it executes completely ahead of the trap, the window staying open: both values of the free choice are admitted
(60_exceptions.md R424).
Rests on log entry 15. -/
def Obligations.TransferInTheOpenWindow : Prop :=
  ∀ (s : State) (i : Instr) (dst src : Word) (slot : Bool), s.level = .hardware → s.Admits i → accessOf i = .vfp →
    cdpOf i = none → s.win = .opened dst src slot →
    (s.Hazard i dst src → exec i s = .next s.takeUndefined) ∧
    (¬ s.Hazard i dst src → Config.freeBool s.draws = false →
      exec i s = .next { s with draws := s.draws + 1 }.takeUndefined) ∧
    (¬ s.Hazard i dst src → Config.freeBool s.draws = true →
      (∀ f, s.loadOf i = some f → s.Reachable f → ∃ t, exec i s = .next t ∧ s.Loaded t f) ∧
      (∀ f, s.storeOf i = some f → s.Reachable f → s.NotCode f → ∃ t, exec i s = .next t ∧ s.Stored t f) ∧
      (∀ ws, s.movedIn i = some ws → ∃ t, exec i s = .next t ∧ s.MovedIn t ws) ∧
      (∀ ws, movedOut i = some ws → ∃ t, exec i s = .next t ∧ s.MovedOut t ws))

/-- A CDP instruction in the pretrigger slot is captured in FPINST2 without being executed, or is the trigger; without
the slot, or with a hazard, it is the trigger; with no legal meaning under FPSCR it is refused
(60_exceptions.md R426, 10_state.md R69).
Rests on log entry 15. -/
def Obligations.PretriggerCapture : Prop :=
  ∀ (s : State) (i : Instr) (c : Cdp) (dst src : Word) (slot : Bool), s.level = .hardware → s.Admits i →
    cdpOf i = some c → s.win = .opened dst src slot →
    (∀ r, c.refusal s.fpscr = some r → exec i s = .refused r) ∧
    (c.refusal s.fpscr = none →
    (slot = false ∨ c.noHazard s.fpscr (dst ||| src) = false → exec i s = .next s.takeUndefined) ∧
    (slot = true → c.noHazard s.fpscr (dst ||| src) = true → Config.freeBool s.draws = false →
      exec i s = .next { s with draws := s.draws + 1 }.takeUndefined) ∧
    (slot = true → c.noHazard s.fpscr (dst ||| src) = true → Config.freeBool s.draws = true →
      exec i s = .next { s with
        draws := s.draws + 1
        fpinst2 := 0xE#4 ++ field (encode i) 0 28
        fpinst2Defined := true
        fpexc := s.fpexc ||| 0x10000000#32
        win := .closed
        pc := s.pc + 4#32 }))

/-! ### Loads, stores and register transfers -/

/-- The eleven load forms complete: every register of the list holds the word at its address, the base register is
written back where the form does, and nothing else changes
(44_ls_memory.md R313 to R315, R320 to R325; 20_memory.md R91).
Rests on log entry 24. -/
def Obligations.LoadReadsMemory : Prop :=
  ∀ (s : State) (i : Instr) (f : Transfer), s.loadOf i = some f → i.WellFormed → s.Ready i.cond → s.Reachable f →
    ∃ t, exec i s = .next t ∧ s.Loaded t f

/-- The eleven store forms complete: every word holds its register, the base register is written back where the form
does, every byte outside those words and every register of the coprocessor is unchanged
(44_ls_memory.md R313, R316, R317, R320 to R322, R327 to R329; 20_memory.md R91).
Rests on log entries 12 and 24. -/
def Obligations.StoreWritesMemory : Prop :=
  ∀ (s : State) (i : Instr) (f : Transfer), s.storeOf i = some f → i.WellFormed → s.Ready i.cond → s.Reachable f →
    s.NotCode f → ∃ t, exec i s = .next t ∧ s.Stored t f

/-- A load or store that aborts at one of its words ends in the Data Abort of that word: the base register is not
written, a load leaves memory, and the registers not loaded before that word, as they were, a store leaves every byte
outside the words before it as it was (20_memory.md R104, R105; 60_exceptions.md R438).
Rests on log entry 11. -/
def Obligations.AbortedTransferIsPartial : Prop :=
  ∀ (s : State) (i : Instr) (f : Transfer) (before after : List (BitVec 5 × Nat)) (w : BitVec 5 × Nat),
    i.WellFormed → s.Ready i.cond →
    f.start.extractLsb' 0 2 = 0#2 → f.start.toNat + 4 * f.words ≤ 2 ^ 32 →
    f.pairs = before ++ w :: after → (∀ v ∈ before, s.abortsAt v.2 = false) → s.abortsAt w.2 = true →
    (s.loadOf i = some f →
      ∃ t, exec i s = .fault (.dataAbort (BitVec.ofNat 32 w.2) t) ∧ t.arm = s.arm ∧ t.mem = s.mem ∧
        t.fpexc = s.fpexc ∧ t.fpinst = s.fpinst ∧ t.fpscr = s.fpscr ∧ t.pc = s.pc ∧
        (∀ v ∈ before, t.readS v.1 = s.readS v.1 ∨ t.readS v.1 = s.readWord v.2) ∧
        (∀ r, (∀ v ∈ before, r ≠ v.1) → t.readS r = s.readS r)) ∧
    (s.storeOf i = some f → s.NotCode f →
      ∃ t, exec i s = .fault (.dataAbort (BitVec.ofNat 32 w.2) t) ∧ t.arm = s.arm ∧ t.sreg = s.sreg ∧
        t.fpexc = s.fpexc ∧ t.fpinst = s.fpinst ∧ t.fpscr = s.fpscr ∧ t.pc = s.pc ∧
        (∀ v ∈ before, t.readWord v.2 = s.readWord v.2 ∨ t.readWord v.2 = s.readS v.1) ∧
        (∀ a, (∀ v ∈ before, a < v.2 ∨ v.2 + 4 ≤ a) → t.readByte a = s.readByte a))

/-- A transfer at an address that is not word aligned, one that runs past the end of the address space and a store to
a word an instruction was fetched from are refused by name (20_memory.md R96, R98, R111). That the store is refused
though an earlier word of it would abort is the model's choice: the spec does not order the two (log entry 45).
Rests on log entries 12 and 22 and 45. -/
def Obligations.TransferAddressRefusals : Prop :=
  ∀ (s : State) (i : Instr) (f : Transfer), (s.loadOf i = some f ∨ s.storeOf i = some f) → i.WellFormed →
    s.Ready i.cond →
    (f.start.extractLsb' 0 2 ≠ 0#2 → exec i s = .refused .misaligned) ∧
    (f.start.extractLsb' 0 2 = 0#2 → 2 ^ 32 < f.start.toNat + 4 * f.words → exec i s = .refused .addressWrap) ∧
    (s.storeOf i = some f → f.start.extractLsb' 0 2 = 0#2 → f.start.toNat + 4 * f.words ≤ 2 ^ 32 →
      (∃ w ∈ f.pairs, w.2 ∈ s.fetched) → exec i s = .refused .storeToCode)

/-- FLDD and FSTD at a word address: the less significant word of the double is at the lower address in little-endian
access and at the higher one in big-endian access (20_memory.md R93, 44_ls_memory.md R315, R317).
Rests on log entry 23. -/
def Obligations.DoubleWordOrderInMemory : Prop :=
  ∀ (s t : State) (c : Cond) (u : Bool) (rn : ArmReg) (d : DReg) (off : BitVec 8), s.Ready c →
    let a := (if u then s.readArm rn + 4#32 * off.setWidth 32 else s.readArm rn - 4#32 * off.setWidth 32).toNat
    (exec (.fldd c u rn d off) s = .next t →
      t.readD d = if s.bigEndian then s.readWord a ++ s.readWord (a + 4) else s.readWord (a + 4) ++ s.readWord a) ∧
    (exec (.fstd c u rn d off) s = .next t →
      s.readD d = if s.bigEndian then t.readWord a ++ t.readWord (a + 4) else t.readWord (a + 4) ++ t.readWord a)

/-- What FSTMX saved, in any of its three forms, FLDMX in any of its three forms restores, loading the same registers from
the same address in whatever state of the registers: it completes (44_ls_memory.md R325, R326, R329).
Rests on log entry 24. -/
def Obligations.SavedRegistersAreRestored : Prop :=
  ∀ (s t u : State) (i j : Instr) (d : DReg) (n : BitVec 7) (f g : Transfer), s.Ready i.cond → u.Ready j.cond →
    j.WellFormed → savedBy i = some (d, n) → restoredBy j = some (d, n) → s.storeOf i = some f →
    u.loadOf j = some g → g.start = f.start → exec i s = .next t → u.mem = t.mem → u.aborts = s.aborts →
    u.bigEndian = s.bigEndian →
    ∃ v, exec j u = .next v ∧
      ∀ k : Nat, k < n.toNat → v.readD (d + BitVec.ofNat 4 k) = s.readD (d + BitVec.ofNat 4 k)

/-- FMSR, FMDLR, FMDHR, FMDRR and FMSRR complete: the named S registers hold the ARM registers, nothing else changes
(45_ls_register_transfer.md R343, R345, R346, R353, R355). -/
def Obligations.MoveToCoprocessor : Prop :=
  ∀ (s : State) (i : Instr) (ws : List (BitVec 5 × Word)), s.movedIn i = some ws → i.WellFormed → s.Ready i.cond →
    ∃ t, exec i s = .next t ∧ s.MovedIn t ws

/-- FMRS, FMRDL, FMRDH, FMRRD and FMRRS complete: the named ARM registers hold the S registers, nothing else changes
(45_ls_register_transfer.md R344, R347, R348, R354, R356). -/
def Obligations.MoveToCore : Prop :=
  ∀ (s : State) (i : Instr) (ws : List (ArmReg × BitVec 5)), movedOut i = some ws → i.WellFormed → s.Ready i.cond →
    ∃ t, exec i s = .next t ∧ s.MovedOut t ws

/-- FMSR: every word that matches 0x0E000A10 under 0x0FF00F10, with a condition and zero in its Should-Be-Zero bits, moves
the ARM register of bits [15:12] to the S register Fn:N, marked written; the other half of the D register is untouched
(45_ls_register_transfer.md R343). The field positions and the Should-Be-Zero bits are those of 30_encoding.md R124 and
R136, from general knowledge: PRESUMED, log entry 26.
Rests on log entry 26. -/
def Obligations.FmsrMovesToSingle : Prop :=
  ∀ (s : State) (w : Word) (c : Cond), condOf (field w 28 4) = some c → w &&& 0x0FF00F10#32 = 0x0E000A10#32 →
    w &&& 0x0000006F#32 = 0#32 → field w 12 4 ≠ 15#4 → s.Ready c →
    ∃ i t, decode w = .instr i ∧ exec i s = .next t ∧
      t.readS (field w 16 4 ++ field w 7 1) = s.readArm (field w 12 4) ∧
      t.isWritten (field w 16 4 ++ field w 7 1) = true ∧
      ∀ r, r ≠ field w 16 4 ++ field w 7 1 → t.readS r = s.readS r

/-- FMXR writes FPSCR, FPEXC, FPINST or FPINST2 with the ARM register, and FPSID, MVFR0 and MVFR1 not at all; it closes
the window and changes nothing else. A 1 in a Should-Be-Zero bit is refused (`ReservedBitsReadZero`). FPSCR is accessible
only with EX = 0 (45_ls_register_transfer.md R357, R360; 10_state.md R51, R71). That FMXR to MVFR0 and MVFR1 is accepted, writes nothing and
executes with EX = 1 is no statement of the source but the choice D26 of 92_eei_decisions.md (log entry 48).
Rests on log entries 19 and 48. -/
def Obligations.FmxrWritesSystemRegister : Prop :=
  ∀ (s : State) (c : Cond) (rd : ArmReg), rd ≠ 15#4 → condPassed c s.cpsr = true →
    (s.accessible (.sys .fpscr) = true → Fpexc.ex s.fpexc = false → s.readArm rd &&& 0x0C086060#32 = 0#32 →
      exec (.fmxr c .fpscr rd 0#7) s =
        .next { s with fpscr := s.readArm rd, win := .closed, pc := s.pc + 4#32 }) ∧
    (s.accessible (.sys .fpexc) = true → s.readArm rd &&& 0x2FFFF872#32 = 0#32 →
      exec (.fmxr c .fpexc rd 0#7) s =
        .next { s with fpexc := s.readArm rd, win := .closed, pc := s.pc + 4#32 }) ∧
    (s.accessible (.sys .fpinst) = true →
      exec (.fmxr c .fpinst rd 0#7) s =
        .next { s with fpinst := s.readArm rd, win := .closed, pc := s.pc + 4#32 }) ∧
    (s.accessible (.sys .fpinst2) = true →
      exec (.fmxr c .fpinst2 rd 0#7) s =
        .next { s with fpinst2 := s.readArm rd, fpinst2Defined := true, win := .closed, pc := s.pc + 4#32 }) ∧
    (∀ reg ∈ [SysReg.fpsid, .mvfr0, .mvfr1], s.accessible (.sys reg) = true →
      exec (.fmxr c reg rd 0#7) s = .next { s with win := .closed, pc := s.pc + 4#32 })

/-- FMRX reads each of the seven system registers into the ARM register, closes the window and changes nothing else;
FPINST2 is a free value while it is not defined (45_ls_register_transfer.md R358, R360; 10_state.md R50, R73 to R75).
That MVFR0 and MVFR1 are read with EX = 1 is the choice D26 of 92_eei_decisions.md (log entry 48).
Rests on log entries 14 and 48. -/
def Obligations.FmrxReadsSystemRegister : Prop :=
  ∀ (s : State) (c : Cond) (rd : ArmReg) (reg : SysReg), rd ≠ 15#4 → condPassed c s.cpsr = true →
    s.accessible (.sys reg) = true → (reg = .fpscr → Fpexc.ex s.fpexc = false) →
    ∃ t, exec (.fmrx c rd reg 0#7) s = .next t ∧
      t.readArm rd =
        (match reg with
        | .fpsid => 0x410120B3#32
        | .fpscr => s.fpscr
        | .fpexc => s.fpexc
        | .fpinst => s.fpinst
        | .fpinst2 => if s.fpinst2Defined then s.fpinst2 else Config.freeWord s.draws
        | .mvfr0 => 0x11111111#32
        | .mvfr1 => 0x00000000#32) ∧
      t = { s with arm := t.arm, win := .closed, pc := s.pc + 4#32, draws := t.draws } ∧
      ∀ r, r ≠ rd → r ≠ 15#4 → t.readArm r = s.readArm r

/-- FMSTAT copies N, Z, C and V of FPSCR to CPSR and changes nothing else but the window and the program counter
(45_ls_register_transfer.md R359). -/
def Obligations.FmstatCopiesFlags : Prop :=
  ∀ (s : State) (c : Cond), condPassed c s.cpsr = true → s.accessible (.sys .fpscr) = true →
    Fpexc.ex s.fpexc = false →
    exec (.fmstat c 0#7) s =
      .next { s with cpsr := field s.fpscr 28 4 ++ field s.cpsr 0 28, win := .closed, pc := s.pc + 4#32 }

/-- The Should-Be-Zero bits of FPSCR and FPEXC hold no state: they read as 0 in every state that meets the invariant, and
FMXR with a 1 in one of them is refused (10_state.md R53).
Rests on log entry 19. -/
def Obligations.ReservedBitsReadZero : Prop :=
  (∀ (s : State) (c : Cond) (rd : ArmReg), rd ≠ 15#4 → condPassed c s.cpsr = true →
    (s.accessible (.sys .fpscr) = true → Fpexc.ex s.fpexc = false → s.readArm rd &&& 0x0C086060#32 ≠ 0#32 →
      exec (.fmxr c .fpscr rd 0#7) s = .refused .sbzWrite) ∧
    (s.accessible (.sys .fpexc) = true → s.readArm rd &&& 0x2FFFF872#32 ≠ 0#32 →
      exec (.fmxr c .fpexc rd 0#7) s = .refused .sbzWrite)) ∧
  (∀ (s : State) (c : Cond) (rd : ArmReg), s.Inv → rd ≠ 15#4 → condPassed c s.cpsr = true →
    (s.accessible (.sys .fpscr) = true → Fpexc.ex s.fpexc = false →
      ∃ t, exec (.fmrx c rd .fpscr 0#7) s = .next t ∧ t.readArm rd &&& 0x0C086060#32 = 0#32) ∧
    (s.accessible (.sys .fpexc) = true →
      ∃ t, exec (.fmrx c rd .fpexc 0#7) s = .next t ∧ t.readArm rd &&& 0x2FFFF872#32 = 0#32))

/-! ### Whole-machine rules -/

/-- The state after reset meets the invariant.
Rests on log entry 5. -/
def Obligations.ResetMeetsInvariant : Prop := State.reset.Inv

/-- Every step keeps the invariant: memory in canonical form, Should-Be-Zero bits zero, the window open only in the
exceptional state, a legal mode, a word-aligned program counter
(10_state.md R39, R53; 60_exceptions.md R431, R450).
Rests on log entries 9 and 36. -/
def Obligations.StepKeepsInvariant : Prop :=
  ∀ s t : State, s.Inv → step s = .next t → t.Inv

/-- What the spec states of the state after reset: FPSCR, FPEXC, FPINST, the window, no register written, FPINST2
undefined, the constant registers; and, no statement of the source but the spec's general knowledge and a choice (log
entry 7), the coprocessor access denied (10_state.md R86, 60_exceptions.md R452).
Rests on log entry 7. -/
def Obligations.ResetValues : Prop :=
  State.reset.fpscr = 0#32 ∧ State.reset.fpexc = 0#32 ∧ State.reset.fpinst = 0xEE000A00#32 ∧
    State.reset.fpinst2Defined = false ∧ State.reset.win = .closed ∧ (∀ r, State.reset.isWritten r = false) ∧
    (State.reset.readSys .fpsid).1 = 0x410120B3#32 ∧ (State.reset.readSys .mvfr0).1 = 0x11111111#32 ∧
    (State.reset.readSys .mvfr1).1 = 0#32 ∧ State.reset.cpAccess = .denied

/-- No instruction but FMXR to FPSCR changes a control bit of FPSCR or clears a cumulative flag, at either level
(10_state.md R54, R62; 45_ls_register_transfer.md R357). -/
def Obligations.FlagsAreSticky : Prop :=
  ∀ (s t : State) (i : Instr), exec i s = .next t → (∀ c rd sbz, i ≠ .fmxr c .fpscr rd sbz) →
    t.fpscr &&& Fpscr.controlMask = s.fpscr &&& Fpscr.controlMask ∧
      s.fpscr &&& Fpscr.cumulativeMask &&& ~~~t.fpscr = 0#32

/-- FPEXC.EN is clear at reset, written by FMXR only, and clear it disables the coprocessor: every instruction that is
no access to a system register, and an access to FPSCR, takes the Undefined Instruction exception. The source says so
of FPSCR; for the other instructions it is the spec's choice, marked general knowledge (60_exceptions.md R453, decision
D17; log entry 46) (10_state.md R67).
Rests on log entry 46. -/
def Obligations.EnableBitOnlyByFmxr : Prop :=
  Fpexc.en State.reset.fpexc = false ∧
  (∀ (s t : State) (i : Instr), exec i s = .next t → (∀ c rd sbz, i ≠ .fmxr c .fpexc rd sbz) →
    Fpexc.en t.fpexc = Fpexc.en s.fpexc) ∧
  (∀ (s : State) (i : Instr), Fpexc.en s.fpexc = false → condPassed i.cond s.cpsr = true →
    accessOf i ∈ [.vfp, .sys .fpscr] → exec i s = .next s.takeUndefined)

/-- At level H FP2V is set when an instruction is captured into FPINST2, and then only; but for FMXR to FPEXC nothing
clears it (10_state.md R69). A CDP instruction admitted in the open window is captured, or it traps: so R426 decides
(60_exceptions.md R421, R426; decision D8, log entry 15).
Rests on log entry 15. -/
def Obligations.CapturedFlagIsNeverCleared : Prop :=
  ∀ (s t : State) (i : Instr), s.level = .hardware → exec i s = .next t → (∀ c rd sbz, i ≠ .fmxr c .fpexc rd sbz) →
    (Fpexc.fp2v s.fpexc = true → Fpexc.fp2v t.fpexc = true) ∧
    (Fpexc.fp2v t.fpexc = true → Fpexc.fp2v s.fpexc = true ∨
      (∃ c, cdpOf i = some c ∧ s.win ≠ .closed ∧ t.fpinst2 = alwaysWord (encode i) ∧ t.win = .closed)) ∧
    (∀ c, cdpOf i = some c → s.win ≠ .closed → s.Admits i →
      (Fpexc.fp2v t.fpexc = true ∧ t.fpinst2 = alwaysWord (encode i) ∧ t.fpinst2Defined = true) ∨
        t = { s with draws := t.draws }.takeUndefined)

/-- A User mode program cannot leave the exceptional state, enable or disable the coprocessor, or change the exceptional
instruction (60_exceptions.md R451). -/
def Obligations.UserModeCannotLeaveExceptionalState : Prop :=
  ∀ (s t : State) (i : Instr), s.level = .hardware → Cpsr.mode s.cpsr = Mode.user → Fpexc.ex s.fpexc = true →
    exec i s = .next t →
    Fpexc.ex t.fpexc = true ∧ Fpexc.en t.fpexc = Fpexc.en s.fpexc ∧ t.fpinst = s.fpinst ∧ t.cpAccess = s.cpAccess

/-- The mode and the rest of CPSR but N, Z, C and V change only by taking the Undefined Instruction exception, which goes
to the vector; and only FMSTAT writes N, Z, C and V (60_exceptions.md R436, R450; 45_ls_register_transfer.md R359).
Rests on log entry 28. -/
def Obligations.OnlyTheTrapChangesTheMode : Prop :=
  ∀ (s t : State) (i : Instr), exec i s = .next t →
    (t.cpsr = Cpsr.enterUndefined s.cpsr ∧ t.pc = s.undefinedVector ∧ t.spsrUnd = s.cpsr ∧ t.r14Und = s.pc + 4#32) ∨
    (t.pc = s.pc + 4#32 ∧ t.cpsr &&& 0x0FFFFFFF#32 = s.cpsr &&& 0x0FFFFFFF#32 ∧
      ((∀ c sbz, i ≠ .fmstat c sbz) → t.cpsr = s.cpsr))

/-- An instruction that is not one of the eleven store forms leaves every byte of memory as it was, at either level, the
support code included (44_ls_memory.md R316, R317, R327 to R329). -/
def Obligations.OnlyStoresChangeMemory : Prop :=
  ∀ (s t : State) (i : Instr), exec i s = .next t → isStore i = false → t.mem = s.mem ∧ t.stored = s.stored

/-! ### Model level A -/

/-- The support code returns to the trigger instruction with EX, FP2V and the cause flags clear, EN and the control bits
of FPSCR as found, the window closed, and memory, the ARM registers and the program counter as they were
(60_exceptions.md R437, R442, R449).
Rests on log entry 30. -/
def Obligations.SupportCodeReturnsToTrigger : Prop :=
  ∀ s t : State, s.supportCode = .next t →
    t.pc = s.pc ∧ t.cpsr = s.cpsr ∧ t.arm = s.arm ∧ t.mem = s.mem ∧ t.win = .closed ∧
      t.fpexc &&& 0x9000008D#32 = 0#32 ∧ Fpexc.en t.fpexc = Fpexc.en s.fpexc ∧
      t.fpscr &&& Fpscr.controlMask = s.fpscr &&& Fpscr.controlMask ∧
      s.fpscr &&& Fpscr.cumulativeMask &&& ~~~t.fpscr = 0#32 ∧ SameEnv { s with r14Und := t.r14Und, spsrUnd := t.spsrUnd } t

/-- At level A the trigger instruction executes normally in the state the support code leaves; where the support code ends
in a user trap or is refused, so does the step; a trigger whose vectors overlap is refused before (60_exceptions.md R435,
R446, R449).
Rests on log entries 21 and 30. -/
def Obligations.TriggerExecutesAfterSupportCode : Prop :=
  ∀ (s : State) (i : Instr), s.level = .architecture → s.Admits i → Fpexc.ex s.fpexc = true →
    (∀ c, cdpOf i = some c → c.overlapping s.fpscr = false) →
    ((accessOf i = .vfp ∧ s.win = .closed) ∨ accessOf i = .sys .fpscr) →
    (∀ t, s.supportCode = .next t → exec i s = exec i t) ∧
    (∀ e, s.supportCode = .fault e → exec i s = .fault e) ∧
    (∀ e, s.supportCode = .refused e → exec i s = .refused e)

/-- An instruction that bounced at its iteration `k`, scalar or vector, is completed by the support code: the iterations
from `k` on get the level A result of their operands, after the iterations the hardware completed; an instruction
captured in the pretrigger slot then gets all of its iterations, in program order. An enabled user trap that one of
them takes is called in the state that iteration leaves (40_cdp_common.md R205; 60_exceptions.md R432 (e), R443, R446).
Rests on log entries 30 and 33 and 41 and 42. -/
def Obligations.BouncedInstructionIsCompletedBySupportCode : Prop :=
  ∀ (s t : State) (i : Instr) (c : Cdp), s.Runs i c → Fpexc.fp2v s.fpexc = false → exec i s = .next t →
    Fpexc.ex t.fpexc = true →
    let k := (c.shape s.fpscr).iters - 1 - Fpexc.remaining t.fpexc
    t.SupportGives (s.archFrom c s.fpscr k) ∧
    ∀ (t' : State) (i' : Instr) (c' : Cdp), cdpOf i' = some c' → t.Admits i' → exec i' t = .next t' →
      Fpexc.fp2v t'.fpexc = true →
      t'.SupportGives (thenDo (s.archFrom c s.fpscr k) (fun v => v.archFrom c' s.fpscr 0))

/-! ### Numbers -/

/-- Rounding of `num`, or of a value strictly between `num` and `num + 1` (a quotient or a square root with a sticky
remainder), to a multiple of `2^k` in the four modes: to nearest within half a unit, a tie going to the even multiple;
the directed modes to the multiple on their side; inexact exactly if the value is no multiple
(40_cdp_common.md R178, R180).
Rests on log entry 33. -/
def Obligations.RoundingToMultiples : Prop :=
  ∀ (neg : Bool) (num k : Nat) (sticky : Bool), (sticky = true → 0 < k) →
    let q (rm : Rounding) := (roundUnits rm neg num sticky k).1
    (2 * (q .nearest * 2 ^ k) ≤ 2 * num + 2 ^ k ∧
      2 * num + (if sticky then 1 else 0) ≤ 2 * (q .nearest * 2 ^ k) + 2 ^ k) ∧
    (2 * (num % 2 ^ k) = 2 ^ k → sticky = false → q .nearest % 2 = 0) ∧
    q .zero * 2 ^ k ≤ num ∧ num < (q .zero + 1) * 2 ^ k ∧
    (neg = false → num + (if sticky then 1 else 0) ≤ q .plusInfinity * 2 ^ k ∧
      q .plusInfinity * 2 ^ k < num + (if sticky then 1 else 0) + 2 ^ k) ∧
    (neg = true → q .plusInfinity = num / 2 ^ k) ∧
    (roundUnits .minusInfinity neg num sticky k = roundUnits .plusInfinity (!neg) num sticky k) ∧
    ∀ rm, (roundUnits rm neg num sticky k).2 = true ↔ num % 2 ^ k ≠ 0 ∨ sticky = true

/-- Table 5-6: the result of an overflow by rounding mode and sign (40_cdp_common.md R182). -/
def Obligations.OverflowResultTable : Prop :=
  (∀ neg, pack .single (overflowResult .single .nearest neg) = if neg then 0xFF800000#64 else 0x7F800000#64) ∧
  (∀ neg, pack .single (overflowResult .single .zero neg) = if neg then 0xFF7FFFFF#64 else 0x7F7FFFFF#64) ∧
  (∀ neg, pack .single (overflowResult .single .plusInfinity neg) = if neg then 0xFF7FFFFF#64 else 0x7F800000#64) ∧
  (∀ neg, pack .single (overflowResult .single .minusInfinity neg) = if neg then 0xFF800000#64 else 0x7F7FFFFF#64) ∧
  (∀ neg, pack .double (overflowResult .double .nearest neg) =
    if neg then 0xFFF0000000000000#64 else 0x7FF0000000000000#64) ∧
  (∀ neg, pack .double (overflowResult .double .zero neg) =
    if neg then 0xFFEFFFFFFFFFFFFF#64 else 0x7FEFFFFFFFFFFFFF#64) ∧
  (∀ neg, pack .double (overflowResult .double .plusInfinity neg) =
    if neg then 0xFFEFFFFFFFFFFFFF#64 else 0x7FF0000000000000#64) ∧
  (∀ neg, pack .double (overflowResult .double .minusInfinity neg) =
    if neg then 0xFFF0000000000000#64 else 0x7FEFFFFFFFFFFFFF#64)
end

