-- ==== Sys2Proof/Laws/State.lean ====
section
/-! SUPPORT. One lemma per field per update of the state, so that no later proof unfolds a record update. -/

namespace Sys2Proof.Machine

variable (s : State)

/-! ### writeS -/

@[simp] theorem State.writeS_fpscr (r : BitVec 5) (v : Word) : (s.writeS r v).fpscr = s.fpscr := rfl
@[simp] theorem State.writeS_fpexc (r : BitVec 5) (v : Word) : (s.writeS r v).fpexc = s.fpexc := rfl
@[simp] theorem State.writeS_fpinst (r : BitVec 5) (v : Word) : (s.writeS r v).fpinst = s.fpinst := rfl
@[simp] theorem State.writeS_fpinst2 (r : BitVec 5) (v : Word) : (s.writeS r v).fpinst2 = s.fpinst2 := rfl
@[simp] theorem State.writeS_fpinst2Defined (r : BitVec 5) (v : Word) : (s.writeS r v).fpinst2Defined = s.fpinst2Defined := rfl
@[simp] theorem State.writeS_win (r : BitVec 5) (v : Word) : (s.writeS r v).win = s.win := rfl
@[simp] theorem State.writeS_arm (r : BitVec 5) (v : Word) : (s.writeS r v).arm = s.arm := rfl
@[simp] theorem State.writeS_pc (r : BitVec 5) (v : Word) : (s.writeS r v).pc = s.pc := rfl
@[simp] theorem State.writeS_cpsr (r : BitVec 5) (v : Word) : (s.writeS r v).cpsr = s.cpsr := rfl
@[simp] theorem State.writeS_r14Und (r : BitVec 5) (v : Word) : (s.writeS r v).r14Und = s.r14Und := rfl
@[simp] theorem State.writeS_spsrUnd (r : BitVec 5) (v : Word) : (s.writeS r v).spsrUnd = s.spsrUnd := rfl
@[simp] theorem State.writeS_bigEndian (r : BitVec 5) (v : Word) : (s.writeS r v).bigEndian = s.bigEndian := rfl
@[simp] theorem State.writeS_highVectors (r : BitVec 5) (v : Word) : (s.writeS r v).highVectors = s.highVectors := rfl
@[simp] theorem State.writeS_cpAccess (r : BitVec 5) (v : Word) : (s.writeS r v).cpAccess = s.cpAccess := rfl
@[simp] theorem State.writeS_mem (r : BitVec 5) (v : Word) : (s.writeS r v).mem = s.mem := rfl
@[simp] theorem State.writeS_aborts (r : BitVec 5) (v : Word) : (s.writeS r v).aborts = s.aborts := rfl
@[simp] theorem State.writeS_fetched (r : BitVec 5) (v : Word) : (s.writeS r v).fetched = s.fetched := rfl
@[simp] theorem State.writeS_stored (r : BitVec 5) (v : Word) : (s.writeS r v).stored = s.stored := rfl
@[simp] theorem State.writeS_level (r : BitVec 5) (v : Word) : (s.writeS r v).level = s.level := rfl
@[simp] theorem State.writeS_draws (r : BitVec 5) (v : Word) : (s.writeS r v).draws = s.draws := rfl

/-! ### writeArm -/

@[simp] theorem State.writeArm_sreg (n : BitVec 4) (v : Word) : (s.writeArm n v).sreg = s.sreg := by unfold State.writeArm; split <;> rfl
@[simp] theorem State.writeArm_written (n : BitVec 4) (v : Word) : (s.writeArm n v).written = s.written := by unfold State.writeArm; split <;> rfl
@[simp] theorem State.writeArm_fpscr (n : BitVec 4) (v : Word) : (s.writeArm n v).fpscr = s.fpscr := by unfold State.writeArm; split <;> rfl
@[simp] theorem State.writeArm_fpexc (n : BitVec 4) (v : Word) : (s.writeArm n v).fpexc = s.fpexc := by unfold State.writeArm; split <;> rfl
@[simp] theorem State.writeArm_fpinst (n : BitVec 4) (v : Word) : (s.writeArm n v).fpinst = s.fpinst := by unfold State.writeArm; split <;> rfl
@[simp] theorem State.writeArm_fpinst2 (n : BitVec 4) (v : Word) : (s.writeArm n v).fpinst2 = s.fpinst2 := by unfold State.writeArm; split <;> rfl
@[simp] theorem State.writeArm_fpinst2Defined (n : BitVec 4) (v : Word) : (s.writeArm n v).fpinst2Defined = s.fpinst2Defined := by unfold State.writeArm; split <;> rfl
@[simp] theorem State.writeArm_win (n : BitVec 4) (v : Word) : (s.writeArm n v).win = s.win := by unfold State.writeArm; split <;> rfl
@[simp] theorem State.writeArm_pc (n : BitVec 4) (v : Word) : (s.writeArm n v).pc = s.pc := by unfold State.writeArm; split <;> rfl
@[simp] theorem State.writeArm_cpsr (n : BitVec 4) (v : Word) : (s.writeArm n v).cpsr = s.cpsr := by unfold State.writeArm; split <;> rfl
@[simp] theorem State.writeArm_r14Und (n : BitVec 4) (v : Word) : (s.writeArm n v).r14Und = s.r14Und := by unfold State.writeArm; split <;> rfl
@[simp] theorem State.writeArm_spsrUnd (n : BitVec 4) (v : Word) : (s.writeArm n v).spsrUnd = s.spsrUnd := by unfold State.writeArm; split <;> rfl
@[simp] theorem State.writeArm_bigEndian (n : BitVec 4) (v : Word) : (s.writeArm n v).bigEndian = s.bigEndian := by unfold State.writeArm; split <;> rfl
@[simp] theorem State.writeArm_highVectors (n : BitVec 4) (v : Word) : (s.writeArm n v).highVectors = s.highVectors := by unfold State.writeArm; split <;> rfl
@[simp] theorem State.writeArm_cpAccess (n : BitVec 4) (v : Word) : (s.writeArm n v).cpAccess = s.cpAccess := by unfold State.writeArm; split <;> rfl
@[simp] theorem State.writeArm_mem (n : BitVec 4) (v : Word) : (s.writeArm n v).mem = s.mem := by unfold State.writeArm; split <;> rfl
@[simp] theorem State.writeArm_aborts (n : BitVec 4) (v : Word) : (s.writeArm n v).aborts = s.aborts := by unfold State.writeArm; split <;> rfl
@[simp] theorem State.writeArm_fetched (n : BitVec 4) (v : Word) : (s.writeArm n v).fetched = s.fetched := by unfold State.writeArm; split <;> rfl
@[simp] theorem State.writeArm_stored (n : BitVec 4) (v : Word) : (s.writeArm n v).stored = s.stored := by unfold State.writeArm; split <;> rfl
@[simp] theorem State.writeArm_level (n : BitVec 4) (v : Word) : (s.writeArm n v).level = s.level := by unfold State.writeArm; split <;> rfl
@[simp] theorem State.writeArm_draws (n : BitVec 4) (v : Word) : (s.writeArm n v).draws = s.draws := by unfold State.writeArm; split <;> rfl

/-! ### setFpscr -/

@[simp] theorem State.setFpscr_sreg (v : Word) : (s.setFpscr v).sreg = s.sreg := rfl
@[simp] theorem State.setFpscr_written (v : Word) : (s.setFpscr v).written = s.written := rfl
@[simp] theorem State.setFpscr_fpscr (v : Word) : (s.setFpscr v).fpscr = v := rfl
@[simp] theorem State.setFpscr_fpexc (v : Word) : (s.setFpscr v).fpexc = s.fpexc := rfl
@[simp] theorem State.setFpscr_fpinst (v : Word) : (s.setFpscr v).fpinst = s.fpinst := rfl
@[simp] theorem State.setFpscr_fpinst2 (v : Word) : (s.setFpscr v).fpinst2 = s.fpinst2 := rfl
@[simp] theorem State.setFpscr_fpinst2Defined (v : Word) : (s.setFpscr v).fpinst2Defined = s.fpinst2Defined := rfl
@[simp] theorem State.setFpscr_win (v : Word) : (s.setFpscr v).win = s.win := rfl
@[simp] theorem State.setFpscr_arm (v : Word) : (s.setFpscr v).arm = s.arm := rfl
@[simp] theorem State.setFpscr_pc (v : Word) : (s.setFpscr v).pc = s.pc := rfl
@[simp] theorem State.setFpscr_cpsr (v : Word) : (s.setFpscr v).cpsr = s.cpsr := rfl
@[simp] theorem State.setFpscr_r14Und (v : Word) : (s.setFpscr v).r14Und = s.r14Und := rfl
@[simp] theorem State.setFpscr_spsrUnd (v : Word) : (s.setFpscr v).spsrUnd = s.spsrUnd := rfl
@[simp] theorem State.setFpscr_bigEndian (v : Word) : (s.setFpscr v).bigEndian = s.bigEndian := rfl
@[simp] theorem State.setFpscr_highVectors (v : Word) : (s.setFpscr v).highVectors = s.highVectors := rfl
@[simp] theorem State.setFpscr_cpAccess (v : Word) : (s.setFpscr v).cpAccess = s.cpAccess := rfl
@[simp] theorem State.setFpscr_mem (v : Word) : (s.setFpscr v).mem = s.mem := rfl
@[simp] theorem State.setFpscr_aborts (v : Word) : (s.setFpscr v).aborts = s.aborts := rfl
@[simp] theorem State.setFpscr_fetched (v : Word) : (s.setFpscr v).fetched = s.fetched := rfl
@[simp] theorem State.setFpscr_stored (v : Word) : (s.setFpscr v).stored = s.stored := rfl
@[simp] theorem State.setFpscr_level (v : Word) : (s.setFpscr v).level = s.level := rfl
@[simp] theorem State.setFpscr_draws (v : Word) : (s.setFpscr v).draws = s.draws := rfl

/-! ### raise -/

@[simp] theorem State.raise_sreg (f : Cumulative) : (s.raise f).sreg = s.sreg := rfl
@[simp] theorem State.raise_written (f : Cumulative) : (s.raise f).written = s.written := rfl
@[simp] theorem State.raise_fpscr (f : Cumulative) : (s.raise f).fpscr = Fpscr.raise s.fpscr f := rfl
@[simp] theorem State.raise_fpexc (f : Cumulative) : (s.raise f).fpexc = s.fpexc := rfl
@[simp] theorem State.raise_fpinst (f : Cumulative) : (s.raise f).fpinst = s.fpinst := rfl
@[simp] theorem State.raise_fpinst2 (f : Cumulative) : (s.raise f).fpinst2 = s.fpinst2 := rfl
@[simp] theorem State.raise_fpinst2Defined (f : Cumulative) : (s.raise f).fpinst2Defined = s.fpinst2Defined := rfl
@[simp] theorem State.raise_win (f : Cumulative) : (s.raise f).win = s.win := rfl
@[simp] theorem State.raise_arm (f : Cumulative) : (s.raise f).arm = s.arm := rfl
@[simp] theorem State.raise_pc (f : Cumulative) : (s.raise f).pc = s.pc := rfl
@[simp] theorem State.raise_cpsr (f : Cumulative) : (s.raise f).cpsr = s.cpsr := rfl
@[simp] theorem State.raise_r14Und (f : Cumulative) : (s.raise f).r14Und = s.r14Und := rfl
@[simp] theorem State.raise_spsrUnd (f : Cumulative) : (s.raise f).spsrUnd = s.spsrUnd := rfl
@[simp] theorem State.raise_bigEndian (f : Cumulative) : (s.raise f).bigEndian = s.bigEndian := rfl
@[simp] theorem State.raise_highVectors (f : Cumulative) : (s.raise f).highVectors = s.highVectors := rfl
@[simp] theorem State.raise_cpAccess (f : Cumulative) : (s.raise f).cpAccess = s.cpAccess := rfl
@[simp] theorem State.raise_mem (f : Cumulative) : (s.raise f).mem = s.mem := rfl
@[simp] theorem State.raise_aborts (f : Cumulative) : (s.raise f).aborts = s.aborts := rfl
@[simp] theorem State.raise_fetched (f : Cumulative) : (s.raise f).fetched = s.fetched := rfl
@[simp] theorem State.raise_stored (f : Cumulative) : (s.raise f).stored = s.stored := rfl
@[simp] theorem State.raise_level (f : Cumulative) : (s.raise f).level = s.level := rfl
@[simp] theorem State.raise_draws (f : Cumulative) : (s.raise f).draws = s.draws := rfl

/-! ### setFpexc -/

@[simp] theorem State.setFpexc_sreg (v : Word) : (s.setFpexc v).sreg = s.sreg := rfl
@[simp] theorem State.setFpexc_written (v : Word) : (s.setFpexc v).written = s.written := rfl
@[simp] theorem State.setFpexc_fpscr (v : Word) : (s.setFpexc v).fpscr = s.fpscr := rfl
@[simp] theorem State.setFpexc_fpexc (v : Word) : (s.setFpexc v).fpexc = v := rfl
@[simp] theorem State.setFpexc_fpinst (v : Word) : (s.setFpexc v).fpinst = s.fpinst := rfl
@[simp] theorem State.setFpexc_fpinst2 (v : Word) : (s.setFpexc v).fpinst2 = s.fpinst2 := rfl
@[simp] theorem State.setFpexc_fpinst2Defined (v : Word) : (s.setFpexc v).fpinst2Defined = s.fpinst2Defined := rfl
@[simp] theorem State.setFpexc_win (v : Word) : (s.setFpexc v).win = s.win := rfl
@[simp] theorem State.setFpexc_arm (v : Word) : (s.setFpexc v).arm = s.arm := rfl
@[simp] theorem State.setFpexc_pc (v : Word) : (s.setFpexc v).pc = s.pc := rfl
@[simp] theorem State.setFpexc_cpsr (v : Word) : (s.setFpexc v).cpsr = s.cpsr := rfl
@[simp] theorem State.setFpexc_r14Und (v : Word) : (s.setFpexc v).r14Und = s.r14Und := rfl
@[simp] theorem State.setFpexc_spsrUnd (v : Word) : (s.setFpexc v).spsrUnd = s.spsrUnd := rfl
@[simp] theorem State.setFpexc_bigEndian (v : Word) : (s.setFpexc v).bigEndian = s.bigEndian := rfl
@[simp] theorem State.setFpexc_highVectors (v : Word) : (s.setFpexc v).highVectors = s.highVectors := rfl
@[simp] theorem State.setFpexc_cpAccess (v : Word) : (s.setFpexc v).cpAccess = s.cpAccess := rfl
@[simp] theorem State.setFpexc_mem (v : Word) : (s.setFpexc v).mem = s.mem := rfl
@[simp] theorem State.setFpexc_aborts (v : Word) : (s.setFpexc v).aborts = s.aborts := rfl
@[simp] theorem State.setFpexc_fetched (v : Word) : (s.setFpexc v).fetched = s.fetched := rfl
@[simp] theorem State.setFpexc_stored (v : Word) : (s.setFpexc v).stored = s.stored := rfl
@[simp] theorem State.setFpexc_level (v : Word) : (s.setFpexc v).level = s.level := rfl
@[simp] theorem State.setFpexc_draws (v : Word) : (s.setFpexc v).draws = s.draws := rfl

/-! ### setFpinst -/

@[simp] theorem State.setFpinst_sreg (v : Word) : (s.setFpinst v).sreg = s.sreg := rfl
@[simp] theorem State.setFpinst_written (v : Word) : (s.setFpinst v).written = s.written := rfl
@[simp] theorem State.setFpinst_fpscr (v : Word) : (s.setFpinst v).fpscr = s.fpscr := rfl
@[simp] theorem State.setFpinst_fpexc (v : Word) : (s.setFpinst v).fpexc = s.fpexc := rfl
@[simp] theorem State.setFpinst_fpinst (v : Word) : (s.setFpinst v).fpinst = v := rfl
@[simp] theorem State.setFpinst_fpinst2 (v : Word) : (s.setFpinst v).fpinst2 = s.fpinst2 := rfl
@[simp] theorem State.setFpinst_fpinst2Defined (v : Word) : (s.setFpinst v).fpinst2Defined = s.fpinst2Defined := rfl
@[simp] theorem State.setFpinst_win (v : Word) : (s.setFpinst v).win = s.win := rfl
@[simp] theorem State.setFpinst_arm (v : Word) : (s.setFpinst v).arm = s.arm := rfl
@[simp] theorem State.setFpinst_pc (v : Word) : (s.setFpinst v).pc = s.pc := rfl
@[simp] theorem State.setFpinst_cpsr (v : Word) : (s.setFpinst v).cpsr = s.cpsr := rfl
@[simp] theorem State.setFpinst_r14Und (v : Word) : (s.setFpinst v).r14Und = s.r14Und := rfl
@[simp] theorem State.setFpinst_spsrUnd (v : Word) : (s.setFpinst v).spsrUnd = s.spsrUnd := rfl
@[simp] theorem State.setFpinst_bigEndian (v : Word) : (s.setFpinst v).bigEndian = s.bigEndian := rfl
@[simp] theorem State.setFpinst_highVectors (v : Word) : (s.setFpinst v).highVectors = s.highVectors := rfl
@[simp] theorem State.setFpinst_cpAccess (v : Word) : (s.setFpinst v).cpAccess = s.cpAccess := rfl
@[simp] theorem State.setFpinst_mem (v : Word) : (s.setFpinst v).mem = s.mem := rfl
@[simp] theorem State.setFpinst_aborts (v : Word) : (s.setFpinst v).aborts = s.aborts := rfl
@[simp] theorem State.setFpinst_fetched (v : Word) : (s.setFpinst v).fetched = s.fetched := rfl
@[simp] theorem State.setFpinst_stored (v : Word) : (s.setFpinst v).stored = s.stored := rfl
@[simp] theorem State.setFpinst_level (v : Word) : (s.setFpinst v).level = s.level := rfl
@[simp] theorem State.setFpinst_draws (v : Word) : (s.setFpinst v).draws = s.draws := rfl

/-! ### setFpinst2 -/

@[simp] theorem State.setFpinst2_sreg (v : Word) : (s.setFpinst2 v).sreg = s.sreg := rfl
@[simp] theorem State.setFpinst2_written (v : Word) : (s.setFpinst2 v).written = s.written := rfl
@[simp] theorem State.setFpinst2_fpscr (v : Word) : (s.setFpinst2 v).fpscr = s.fpscr := rfl
@[simp] theorem State.setFpinst2_fpexc (v : Word) : (s.setFpinst2 v).fpexc = s.fpexc := rfl
@[simp] theorem State.setFpinst2_fpinst (v : Word) : (s.setFpinst2 v).fpinst = s.fpinst := rfl
@[simp] theorem State.setFpinst2_fpinst2 (v : Word) : (s.setFpinst2 v).fpinst2 = v := rfl
@[simp] theorem State.setFpinst2_fpinst2Defined (v : Word) : (s.setFpinst2 v).fpinst2Defined = true := rfl
@[simp] theorem State.setFpinst2_win (v : Word) : (s.setFpinst2 v).win = s.win := rfl
@[simp] theorem State.setFpinst2_arm (v : Word) : (s.setFpinst2 v).arm = s.arm := rfl
@[simp] theorem State.setFpinst2_pc (v : Word) : (s.setFpinst2 v).pc = s.pc := rfl
@[simp] theorem State.setFpinst2_cpsr (v : Word) : (s.setFpinst2 v).cpsr = s.cpsr := rfl
@[simp] theorem State.setFpinst2_r14Und (v : Word) : (s.setFpinst2 v).r14Und = s.r14Und := rfl
@[simp] theorem State.setFpinst2_spsrUnd (v : Word) : (s.setFpinst2 v).spsrUnd = s.spsrUnd := rfl
@[simp] theorem State.setFpinst2_bigEndian (v : Word) : (s.setFpinst2 v).bigEndian = s.bigEndian := rfl
@[simp] theorem State.setFpinst2_highVectors (v : Word) : (s.setFpinst2 v).highVectors = s.highVectors := rfl
@[simp] theorem State.setFpinst2_cpAccess (v : Word) : (s.setFpinst2 v).cpAccess = s.cpAccess := rfl
@[simp] theorem State.setFpinst2_mem (v : Word) : (s.setFpinst2 v).mem = s.mem := rfl
@[simp] theorem State.setFpinst2_aborts (v : Word) : (s.setFpinst2 v).aborts = s.aborts := rfl
@[simp] theorem State.setFpinst2_fetched (v : Word) : (s.setFpinst2 v).fetched = s.fetched := rfl
@[simp] theorem State.setFpinst2_stored (v : Word) : (s.setFpinst2 v).stored = s.stored := rfl
@[simp] theorem State.setFpinst2_level (v : Word) : (s.setFpinst2 v).level = s.level := rfl
@[simp] theorem State.setFpinst2_draws (v : Word) : (s.setFpinst2 v).draws = s.draws := rfl

/-! ### setFpinst2Defined -/

@[simp] theorem State.setFpinst2Defined_sreg (b : Bool) : (s.setFpinst2Defined b).sreg = s.sreg := rfl
@[simp] theorem State.setFpinst2Defined_written (b : Bool) : (s.setFpinst2Defined b).written = s.written := rfl
@[simp] theorem State.setFpinst2Defined_fpscr (b : Bool) : (s.setFpinst2Defined b).fpscr = s.fpscr := rfl
@[simp] theorem State.setFpinst2Defined_fpexc (b : Bool) : (s.setFpinst2Defined b).fpexc = s.fpexc := rfl
@[simp] theorem State.setFpinst2Defined_fpinst (b : Bool) : (s.setFpinst2Defined b).fpinst = s.fpinst := rfl
@[simp] theorem State.setFpinst2Defined_fpinst2 (b : Bool) : (s.setFpinst2Defined b).fpinst2 = s.fpinst2 := rfl
@[simp] theorem State.setFpinst2Defined_fpinst2Defined (b : Bool) : (s.setFpinst2Defined b).fpinst2Defined = b := rfl
@[simp] theorem State.setFpinst2Defined_win (b : Bool) : (s.setFpinst2Defined b).win = s.win := rfl
@[simp] theorem State.setFpinst2Defined_arm (b : Bool) : (s.setFpinst2Defined b).arm = s.arm := rfl
@[simp] theorem State.setFpinst2Defined_pc (b : Bool) : (s.setFpinst2Defined b).pc = s.pc := rfl
@[simp] theorem State.setFpinst2Defined_cpsr (b : Bool) : (s.setFpinst2Defined b).cpsr = s.cpsr := rfl
@[simp] theorem State.setFpinst2Defined_r14Und (b : Bool) : (s.setFpinst2Defined b).r14Und = s.r14Und := rfl
@[simp] theorem State.setFpinst2Defined_spsrUnd (b : Bool) : (s.setFpinst2Defined b).spsrUnd = s.spsrUnd := rfl
@[simp] theorem State.setFpinst2Defined_bigEndian (b : Bool) : (s.setFpinst2Defined b).bigEndian = s.bigEndian := rfl
@[simp] theorem State.setFpinst2Defined_highVectors (b : Bool) : (s.setFpinst2Defined b).highVectors = s.highVectors := rfl
@[simp] theorem State.setFpinst2Defined_cpAccess (b : Bool) : (s.setFpinst2Defined b).cpAccess = s.cpAccess := rfl
@[simp] theorem State.setFpinst2Defined_mem (b : Bool) : (s.setFpinst2Defined b).mem = s.mem := rfl
@[simp] theorem State.setFpinst2Defined_aborts (b : Bool) : (s.setFpinst2Defined b).aborts = s.aborts := rfl
@[simp] theorem State.setFpinst2Defined_fetched (b : Bool) : (s.setFpinst2Defined b).fetched = s.fetched := rfl
@[simp] theorem State.setFpinst2Defined_stored (b : Bool) : (s.setFpinst2Defined b).stored = s.stored := rfl
@[simp] theorem State.setFpinst2Defined_level (b : Bool) : (s.setFpinst2Defined b).level = s.level := rfl
@[simp] theorem State.setFpinst2Defined_draws (b : Bool) : (s.setFpinst2Defined b).draws = s.draws := rfl

/-! ### setWin -/

@[simp] theorem State.setWin_sreg (w : Window) : (s.setWin w).sreg = s.sreg := rfl
@[simp] theorem State.setWin_written (w : Window) : (s.setWin w).written = s.written := rfl
@[simp] theorem State.setWin_fpscr (w : Window) : (s.setWin w).fpscr = s.fpscr := rfl
@[simp] theorem State.setWin_fpexc (w : Window) : (s.setWin w).fpexc = s.fpexc := rfl
@[simp] theorem State.setWin_fpinst (w : Window) : (s.setWin w).fpinst = s.fpinst := rfl
@[simp] theorem State.setWin_fpinst2 (w : Window) : (s.setWin w).fpinst2 = s.fpinst2 := rfl
@[simp] theorem State.setWin_fpinst2Defined (w : Window) : (s.setWin w).fpinst2Defined = s.fpinst2Defined := rfl
@[simp] theorem State.setWin_win (w : Window) : (s.setWin w).win = w := rfl
@[simp] theorem State.setWin_arm (w : Window) : (s.setWin w).arm = s.arm := rfl
@[simp] theorem State.setWin_pc (w : Window) : (s.setWin w).pc = s.pc := rfl
@[simp] theorem State.setWin_cpsr (w : Window) : (s.setWin w).cpsr = s.cpsr := rfl
@[simp] theorem State.setWin_r14Und (w : Window) : (s.setWin w).r14Und = s.r14Und := rfl
@[simp] theorem State.setWin_spsrUnd (w : Window) : (s.setWin w).spsrUnd = s.spsrUnd := rfl
@[simp] theorem State.setWin_bigEndian (w : Window) : (s.setWin w).bigEndian = s.bigEndian := rfl
@[simp] theorem State.setWin_highVectors (w : Window) : (s.setWin w).highVectors = s.highVectors := rfl
@[simp] theorem State.setWin_cpAccess (w : Window) : (s.setWin w).cpAccess = s.cpAccess := rfl
@[simp] theorem State.setWin_mem (w : Window) : (s.setWin w).mem = s.mem := rfl
@[simp] theorem State.setWin_aborts (w : Window) : (s.setWin w).aborts = s.aborts := rfl
@[simp] theorem State.setWin_fetched (w : Window) : (s.setWin w).fetched = s.fetched := rfl
@[simp] theorem State.setWin_stored (w : Window) : (s.setWin w).stored = s.stored := rfl
@[simp] theorem State.setWin_level (w : Window) : (s.setWin w).level = s.level := rfl
@[simp] theorem State.setWin_draws (w : Window) : (s.setWin w).draws = s.draws := rfl

/-! ### closeWin -/

@[simp] theorem State.closeWin_sreg : (s.closeWin).sreg = s.sreg := rfl
@[simp] theorem State.closeWin_written : (s.closeWin).written = s.written := rfl
@[simp] theorem State.closeWin_fpscr : (s.closeWin).fpscr = s.fpscr := rfl
@[simp] theorem State.closeWin_fpexc : (s.closeWin).fpexc = s.fpexc := rfl
@[simp] theorem State.closeWin_fpinst : (s.closeWin).fpinst = s.fpinst := rfl
@[simp] theorem State.closeWin_fpinst2 : (s.closeWin).fpinst2 = s.fpinst2 := rfl
@[simp] theorem State.closeWin_fpinst2Defined : (s.closeWin).fpinst2Defined = s.fpinst2Defined := rfl
@[simp] theorem State.closeWin_win : (s.closeWin).win = .closed := rfl
@[simp] theorem State.closeWin_arm : (s.closeWin).arm = s.arm := rfl
@[simp] theorem State.closeWin_pc : (s.closeWin).pc = s.pc := rfl
@[simp] theorem State.closeWin_cpsr : (s.closeWin).cpsr = s.cpsr := rfl
@[simp] theorem State.closeWin_r14Und : (s.closeWin).r14Und = s.r14Und := rfl
@[simp] theorem State.closeWin_spsrUnd : (s.closeWin).spsrUnd = s.spsrUnd := rfl
@[simp] theorem State.closeWin_bigEndian : (s.closeWin).bigEndian = s.bigEndian := rfl
@[simp] theorem State.closeWin_highVectors : (s.closeWin).highVectors = s.highVectors := rfl
@[simp] theorem State.closeWin_cpAccess : (s.closeWin).cpAccess = s.cpAccess := rfl
@[simp] theorem State.closeWin_mem : (s.closeWin).mem = s.mem := rfl
@[simp] theorem State.closeWin_aborts : (s.closeWin).aborts = s.aborts := rfl
@[simp] theorem State.closeWin_fetched : (s.closeWin).fetched = s.fetched := rfl
@[simp] theorem State.closeWin_stored : (s.closeWin).stored = s.stored := rfl
@[simp] theorem State.closeWin_level : (s.closeWin).level = s.level := rfl
@[simp] theorem State.closeWin_draws : (s.closeWin).draws = s.draws := rfl

/-! ### setCpsr -/

@[simp] theorem State.setCpsr_sreg (v : Word) : (s.setCpsr v).sreg = s.sreg := rfl
@[simp] theorem State.setCpsr_written (v : Word) : (s.setCpsr v).written = s.written := rfl
@[simp] theorem State.setCpsr_fpscr (v : Word) : (s.setCpsr v).fpscr = s.fpscr := rfl
@[simp] theorem State.setCpsr_fpexc (v : Word) : (s.setCpsr v).fpexc = s.fpexc := rfl
@[simp] theorem State.setCpsr_fpinst (v : Word) : (s.setCpsr v).fpinst = s.fpinst := rfl
@[simp] theorem State.setCpsr_fpinst2 (v : Word) : (s.setCpsr v).fpinst2 = s.fpinst2 := rfl
@[simp] theorem State.setCpsr_fpinst2Defined (v : Word) : (s.setCpsr v).fpinst2Defined = s.fpinst2Defined := rfl
@[simp] theorem State.setCpsr_win (v : Word) : (s.setCpsr v).win = s.win := rfl
@[simp] theorem State.setCpsr_arm (v : Word) : (s.setCpsr v).arm = s.arm := rfl
@[simp] theorem State.setCpsr_pc (v : Word) : (s.setCpsr v).pc = s.pc := rfl
@[simp] theorem State.setCpsr_cpsr (v : Word) : (s.setCpsr v).cpsr = v := rfl
@[simp] theorem State.setCpsr_r14Und (v : Word) : (s.setCpsr v).r14Und = s.r14Und := rfl
@[simp] theorem State.setCpsr_spsrUnd (v : Word) : (s.setCpsr v).spsrUnd = s.spsrUnd := rfl
@[simp] theorem State.setCpsr_bigEndian (v : Word) : (s.setCpsr v).bigEndian = s.bigEndian := rfl
@[simp] theorem State.setCpsr_highVectors (v : Word) : (s.setCpsr v).highVectors = s.highVectors := rfl
@[simp] theorem State.setCpsr_cpAccess (v : Word) : (s.setCpsr v).cpAccess = s.cpAccess := rfl
@[simp] theorem State.setCpsr_mem (v : Word) : (s.setCpsr v).mem = s.mem := rfl
@[simp] theorem State.setCpsr_aborts (v : Word) : (s.setCpsr v).aborts = s.aborts := rfl
@[simp] theorem State.setCpsr_fetched (v : Word) : (s.setCpsr v).fetched = s.fetched := rfl
@[simp] theorem State.setCpsr_stored (v : Word) : (s.setCpsr v).stored = s.stored := rfl
@[simp] theorem State.setCpsr_level (v : Word) : (s.setCpsr v).level = s.level := rfl
@[simp] theorem State.setCpsr_draws (v : Word) : (s.setCpsr v).draws = s.draws := rfl

/-! ### setPc -/

@[simp] theorem State.setPc_sreg (v : Word) : (s.setPc v).sreg = s.sreg := rfl
@[simp] theorem State.setPc_written (v : Word) : (s.setPc v).written = s.written := rfl
@[simp] theorem State.setPc_fpscr (v : Word) : (s.setPc v).fpscr = s.fpscr := rfl
@[simp] theorem State.setPc_fpexc (v : Word) : (s.setPc v).fpexc = s.fpexc := rfl
@[simp] theorem State.setPc_fpinst (v : Word) : (s.setPc v).fpinst = s.fpinst := rfl
@[simp] theorem State.setPc_fpinst2 (v : Word) : (s.setPc v).fpinst2 = s.fpinst2 := rfl
@[simp] theorem State.setPc_fpinst2Defined (v : Word) : (s.setPc v).fpinst2Defined = s.fpinst2Defined := rfl
@[simp] theorem State.setPc_win (v : Word) : (s.setPc v).win = s.win := rfl
@[simp] theorem State.setPc_arm (v : Word) : (s.setPc v).arm = s.arm := rfl
@[simp] theorem State.setPc_pc (v : Word) : (s.setPc v).pc = v := rfl
@[simp] theorem State.setPc_cpsr (v : Word) : (s.setPc v).cpsr = s.cpsr := rfl
@[simp] theorem State.setPc_r14Und (v : Word) : (s.setPc v).r14Und = s.r14Und := rfl
@[simp] theorem State.setPc_spsrUnd (v : Word) : (s.setPc v).spsrUnd = s.spsrUnd := rfl
@[simp] theorem State.setPc_bigEndian (v : Word) : (s.setPc v).bigEndian = s.bigEndian := rfl
@[simp] theorem State.setPc_highVectors (v : Word) : (s.setPc v).highVectors = s.highVectors := rfl
@[simp] theorem State.setPc_cpAccess (v : Word) : (s.setPc v).cpAccess = s.cpAccess := rfl
@[simp] theorem State.setPc_mem (v : Word) : (s.setPc v).mem = s.mem := rfl
@[simp] theorem State.setPc_aborts (v : Word) : (s.setPc v).aborts = s.aborts := rfl
@[simp] theorem State.setPc_fetched (v : Word) : (s.setPc v).fetched = s.fetched := rfl
@[simp] theorem State.setPc_stored (v : Word) : (s.setPc v).stored = s.stored := rfl
@[simp] theorem State.setPc_level (v : Word) : (s.setPc v).level = s.level := rfl
@[simp] theorem State.setPc_draws (v : Word) : (s.setPc v).draws = s.draws := rfl

/-! ### advance -/

@[simp] theorem State.advance_sreg : (s.advance).sreg = s.sreg := rfl
@[simp] theorem State.advance_written : (s.advance).written = s.written := rfl
@[simp] theorem State.advance_fpscr : (s.advance).fpscr = s.fpscr := rfl
@[simp] theorem State.advance_fpexc : (s.advance).fpexc = s.fpexc := rfl
@[simp] theorem State.advance_fpinst : (s.advance).fpinst = s.fpinst := rfl
@[simp] theorem State.advance_fpinst2 : (s.advance).fpinst2 = s.fpinst2 := rfl
@[simp] theorem State.advance_fpinst2Defined : (s.advance).fpinst2Defined = s.fpinst2Defined := rfl
@[simp] theorem State.advance_win : (s.advance).win = s.win := rfl
@[simp] theorem State.advance_arm : (s.advance).arm = s.arm := rfl
@[simp] theorem State.advance_pc : (s.advance).pc = s.pc + 4#32 := rfl
@[simp] theorem State.advance_cpsr : (s.advance).cpsr = s.cpsr := rfl
@[simp] theorem State.advance_r14Und : (s.advance).r14Und = s.r14Und := rfl
@[simp] theorem State.advance_spsrUnd : (s.advance).spsrUnd = s.spsrUnd := rfl
@[simp] theorem State.advance_bigEndian : (s.advance).bigEndian = s.bigEndian := rfl
@[simp] theorem State.advance_highVectors : (s.advance).highVectors = s.highVectors := rfl
@[simp] theorem State.advance_cpAccess : (s.advance).cpAccess = s.cpAccess := rfl
@[simp] theorem State.advance_mem : (s.advance).mem = s.mem := rfl
@[simp] theorem State.advance_aborts : (s.advance).aborts = s.aborts := rfl
@[simp] theorem State.advance_fetched : (s.advance).fetched = s.fetched := rfl
@[simp] theorem State.advance_stored : (s.advance).stored = s.stored := rfl
@[simp] theorem State.advance_level : (s.advance).level = s.level := rfl
@[simp] theorem State.advance_draws : (s.advance).draws = s.draws := rfl

/-! ### draw_snd -/

@[simp] theorem State.draw_snd_sreg : (s.draw.2).sreg = s.sreg := rfl
@[simp] theorem State.draw_snd_written : (s.draw.2).written = s.written := rfl
@[simp] theorem State.draw_snd_fpscr : (s.draw.2).fpscr = s.fpscr := rfl
@[simp] theorem State.draw_snd_fpexc : (s.draw.2).fpexc = s.fpexc := rfl
@[simp] theorem State.draw_snd_fpinst : (s.draw.2).fpinst = s.fpinst := rfl
@[simp] theorem State.draw_snd_fpinst2 : (s.draw.2).fpinst2 = s.fpinst2 := rfl
@[simp] theorem State.draw_snd_fpinst2Defined : (s.draw.2).fpinst2Defined = s.fpinst2Defined := rfl
@[simp] theorem State.draw_snd_win : (s.draw.2).win = s.win := rfl
@[simp] theorem State.draw_snd_arm : (s.draw.2).arm = s.arm := rfl
@[simp] theorem State.draw_snd_pc : (s.draw.2).pc = s.pc := rfl
@[simp] theorem State.draw_snd_cpsr : (s.draw.2).cpsr = s.cpsr := rfl
@[simp] theorem State.draw_snd_r14Und : (s.draw.2).r14Und = s.r14Und := rfl
@[simp] theorem State.draw_snd_spsrUnd : (s.draw.2).spsrUnd = s.spsrUnd := rfl
@[simp] theorem State.draw_snd_bigEndian : (s.draw.2).bigEndian = s.bigEndian := rfl
@[simp] theorem State.draw_snd_highVectors : (s.draw.2).highVectors = s.highVectors := rfl
@[simp] theorem State.draw_snd_cpAccess : (s.draw.2).cpAccess = s.cpAccess := rfl
@[simp] theorem State.draw_snd_mem : (s.draw.2).mem = s.mem := rfl
@[simp] theorem State.draw_snd_aborts : (s.draw.2).aborts = s.aborts := rfl
@[simp] theorem State.draw_snd_fetched : (s.draw.2).fetched = s.fetched := rfl
@[simp] theorem State.draw_snd_stored : (s.draw.2).stored = s.stored := rfl
@[simp] theorem State.draw_snd_level : (s.draw.2).level = s.level := rfl
@[simp] theorem State.draw_snd_draws : (s.draw.2).draws = s.draws + 1 := rfl

/-! ### drawWord_snd -/

@[simp] theorem State.drawWord_snd_sreg : (s.drawWord.2).sreg = s.sreg := rfl
@[simp] theorem State.drawWord_snd_written : (s.drawWord.2).written = s.written := rfl
@[simp] theorem State.drawWord_snd_fpscr : (s.drawWord.2).fpscr = s.fpscr := rfl
@[simp] theorem State.drawWord_snd_fpexc : (s.drawWord.2).fpexc = s.fpexc := rfl
@[simp] theorem State.drawWord_snd_fpinst : (s.drawWord.2).fpinst = s.fpinst := rfl
@[simp] theorem State.drawWord_snd_fpinst2 : (s.drawWord.2).fpinst2 = s.fpinst2 := rfl
@[simp] theorem State.drawWord_snd_fpinst2Defined : (s.drawWord.2).fpinst2Defined = s.fpinst2Defined := rfl
@[simp] theorem State.drawWord_snd_win : (s.drawWord.2).win = s.win := rfl
@[simp] theorem State.drawWord_snd_arm : (s.drawWord.2).arm = s.arm := rfl
@[simp] theorem State.drawWord_snd_pc : (s.drawWord.2).pc = s.pc := rfl
@[simp] theorem State.drawWord_snd_cpsr : (s.drawWord.2).cpsr = s.cpsr := rfl
@[simp] theorem State.drawWord_snd_r14Und : (s.drawWord.2).r14Und = s.r14Und := rfl
@[simp] theorem State.drawWord_snd_spsrUnd : (s.drawWord.2).spsrUnd = s.spsrUnd := rfl
@[simp] theorem State.drawWord_snd_bigEndian : (s.drawWord.2).bigEndian = s.bigEndian := rfl
@[simp] theorem State.drawWord_snd_highVectors : (s.drawWord.2).highVectors = s.highVectors := rfl
@[simp] theorem State.drawWord_snd_cpAccess : (s.drawWord.2).cpAccess = s.cpAccess := rfl
@[simp] theorem State.drawWord_snd_mem : (s.drawWord.2).mem = s.mem := rfl
@[simp] theorem State.drawWord_snd_aborts : (s.drawWord.2).aborts = s.aborts := rfl
@[simp] theorem State.drawWord_snd_fetched : (s.drawWord.2).fetched = s.fetched := rfl
@[simp] theorem State.drawWord_snd_stored : (s.drawWord.2).stored = s.stored := rfl
@[simp] theorem State.drawWord_snd_level : (s.drawWord.2).level = s.level := rfl
@[simp] theorem State.drawWord_snd_draws : (s.drawWord.2).draws = s.draws + 1 := rfl

/-! ### drawIf_snd -/

@[simp] theorem State.drawIf_snd_sreg (b : Bool) : ((s.drawIf b).2).sreg = s.sreg := by unfold State.drawIf; split <;> rfl
@[simp] theorem State.drawIf_snd_written (b : Bool) : ((s.drawIf b).2).written = s.written := by unfold State.drawIf; split <;> rfl
@[simp] theorem State.drawIf_snd_fpscr (b : Bool) : ((s.drawIf b).2).fpscr = s.fpscr := by unfold State.drawIf; split <;> rfl
@[simp] theorem State.drawIf_snd_fpexc (b : Bool) : ((s.drawIf b).2).fpexc = s.fpexc := by unfold State.drawIf; split <;> rfl
@[simp] theorem State.drawIf_snd_fpinst (b : Bool) : ((s.drawIf b).2).fpinst = s.fpinst := by unfold State.drawIf; split <;> rfl
@[simp] theorem State.drawIf_snd_fpinst2 (b : Bool) : ((s.drawIf b).2).fpinst2 = s.fpinst2 := by unfold State.drawIf; split <;> rfl
@[simp] theorem State.drawIf_snd_fpinst2Defined (b : Bool) : ((s.drawIf b).2).fpinst2Defined = s.fpinst2Defined := by unfold State.drawIf; split <;> rfl
@[simp] theorem State.drawIf_snd_win (b : Bool) : ((s.drawIf b).2).win = s.win := by unfold State.drawIf; split <;> rfl
@[simp] theorem State.drawIf_snd_arm (b : Bool) : ((s.drawIf b).2).arm = s.arm := by unfold State.drawIf; split <;> rfl
@[simp] theorem State.drawIf_snd_pc (b : Bool) : ((s.drawIf b).2).pc = s.pc := by unfold State.drawIf; split <;> rfl
@[simp] theorem State.drawIf_snd_cpsr (b : Bool) : ((s.drawIf b).2).cpsr = s.cpsr := by unfold State.drawIf; split <;> rfl
@[simp] theorem State.drawIf_snd_r14Und (b : Bool) : ((s.drawIf b).2).r14Und = s.r14Und := by unfold State.drawIf; split <;> rfl
@[simp] theorem State.drawIf_snd_spsrUnd (b : Bool) : ((s.drawIf b).2).spsrUnd = s.spsrUnd := by unfold State.drawIf; split <;> rfl
@[simp] theorem State.drawIf_snd_bigEndian (b : Bool) : ((s.drawIf b).2).bigEndian = s.bigEndian := by unfold State.drawIf; split <;> rfl
@[simp] theorem State.drawIf_snd_highVectors (b : Bool) : ((s.drawIf b).2).highVectors = s.highVectors := by unfold State.drawIf; split <;> rfl
@[simp] theorem State.drawIf_snd_cpAccess (b : Bool) : ((s.drawIf b).2).cpAccess = s.cpAccess := by unfold State.drawIf; split <;> rfl
@[simp] theorem State.drawIf_snd_mem (b : Bool) : ((s.drawIf b).2).mem = s.mem := by unfold State.drawIf; split <;> rfl
@[simp] theorem State.drawIf_snd_aborts (b : Bool) : ((s.drawIf b).2).aborts = s.aborts := by unfold State.drawIf; split <;> rfl
@[simp] theorem State.drawIf_snd_fetched (b : Bool) : ((s.drawIf b).2).fetched = s.fetched := by unfold State.drawIf; split <;> rfl
@[simp] theorem State.drawIf_snd_stored (b : Bool) : ((s.drawIf b).2).stored = s.stored := by unfold State.drawIf; split <;> rfl
@[simp] theorem State.drawIf_snd_level (b : Bool) : ((s.drawIf b).2).level = s.level := by unfold State.drawIf; split <;> rfl

/-! ### placeWord -/

@[simp] theorem State.placeWord_sreg (a : Nat) (w : Word) : (s.placeWord a w).sreg = s.sreg := rfl
@[simp] theorem State.placeWord_written (a : Nat) (w : Word) : (s.placeWord a w).written = s.written := rfl
@[simp] theorem State.placeWord_fpscr (a : Nat) (w : Word) : (s.placeWord a w).fpscr = s.fpscr := rfl
@[simp] theorem State.placeWord_fpexc (a : Nat) (w : Word) : (s.placeWord a w).fpexc = s.fpexc := rfl
@[simp] theorem State.placeWord_fpinst (a : Nat) (w : Word) : (s.placeWord a w).fpinst = s.fpinst := rfl
@[simp] theorem State.placeWord_fpinst2 (a : Nat) (w : Word) : (s.placeWord a w).fpinst2 = s.fpinst2 := rfl
@[simp] theorem State.placeWord_fpinst2Defined (a : Nat) (w : Word) : (s.placeWord a w).fpinst2Defined = s.fpinst2Defined := rfl
@[simp] theorem State.placeWord_win (a : Nat) (w : Word) : (s.placeWord a w).win = s.win := rfl
@[simp] theorem State.placeWord_arm (a : Nat) (w : Word) : (s.placeWord a w).arm = s.arm := rfl
@[simp] theorem State.placeWord_pc (a : Nat) (w : Word) : (s.placeWord a w).pc = s.pc := rfl
@[simp] theorem State.placeWord_cpsr (a : Nat) (w : Word) : (s.placeWord a w).cpsr = s.cpsr := rfl
@[simp] theorem State.placeWord_r14Und (a : Nat) (w : Word) : (s.placeWord a w).r14Und = s.r14Und := rfl
@[simp] theorem State.placeWord_spsrUnd (a : Nat) (w : Word) : (s.placeWord a w).spsrUnd = s.spsrUnd := rfl
@[simp] theorem State.placeWord_bigEndian (a : Nat) (w : Word) : (s.placeWord a w).bigEndian = s.bigEndian := rfl
@[simp] theorem State.placeWord_highVectors (a : Nat) (w : Word) : (s.placeWord a w).highVectors = s.highVectors := rfl
@[simp] theorem State.placeWord_cpAccess (a : Nat) (w : Word) : (s.placeWord a w).cpAccess = s.cpAccess := rfl
@[simp] theorem State.placeWord_mem (a : Nat) (w : Word) : (s.placeWord a w).mem = Memory.writeWord s.mem a w := rfl
@[simp] theorem State.placeWord_aborts (a : Nat) (w : Word) : (s.placeWord a w).aborts = s.aborts := rfl
@[simp] theorem State.placeWord_fetched (a : Nat) (w : Word) : (s.placeWord a w).fetched = s.fetched := rfl
@[simp] theorem State.placeWord_stored (a : Nat) (w : Word) : (s.placeWord a w).stored = s.stored := rfl
@[simp] theorem State.placeWord_level (a : Nat) (w : Word) : (s.placeWord a w).level = s.level := rfl
@[simp] theorem State.placeWord_draws (a : Nat) (w : Word) : (s.placeWord a w).draws = s.draws := rfl

/-! ### writeWord -/

@[simp] theorem State.writeWord_sreg (a : Nat) (w : Word) : (s.writeWord a w).sreg = s.sreg := rfl
@[simp] theorem State.writeWord_written (a : Nat) (w : Word) : (s.writeWord a w).written = s.written := rfl
@[simp] theorem State.writeWord_fpscr (a : Nat) (w : Word) : (s.writeWord a w).fpscr = s.fpscr := rfl
@[simp] theorem State.writeWord_fpexc (a : Nat) (w : Word) : (s.writeWord a w).fpexc = s.fpexc := rfl
@[simp] theorem State.writeWord_fpinst (a : Nat) (w : Word) : (s.writeWord a w).fpinst = s.fpinst := rfl
@[simp] theorem State.writeWord_fpinst2 (a : Nat) (w : Word) : (s.writeWord a w).fpinst2 = s.fpinst2 := rfl
@[simp] theorem State.writeWord_fpinst2Defined (a : Nat) (w : Word) : (s.writeWord a w).fpinst2Defined = s.fpinst2Defined := rfl
@[simp] theorem State.writeWord_win (a : Nat) (w : Word) : (s.writeWord a w).win = s.win := rfl
@[simp] theorem State.writeWord_arm (a : Nat) (w : Word) : (s.writeWord a w).arm = s.arm := rfl
@[simp] theorem State.writeWord_pc (a : Nat) (w : Word) : (s.writeWord a w).pc = s.pc := rfl
@[simp] theorem State.writeWord_cpsr (a : Nat) (w : Word) : (s.writeWord a w).cpsr = s.cpsr := rfl
@[simp] theorem State.writeWord_r14Und (a : Nat) (w : Word) : (s.writeWord a w).r14Und = s.r14Und := rfl
@[simp] theorem State.writeWord_spsrUnd (a : Nat) (w : Word) : (s.writeWord a w).spsrUnd = s.spsrUnd := rfl
@[simp] theorem State.writeWord_bigEndian (a : Nat) (w : Word) : (s.writeWord a w).bigEndian = s.bigEndian := rfl
@[simp] theorem State.writeWord_highVectors (a : Nat) (w : Word) : (s.writeWord a w).highVectors = s.highVectors := rfl
@[simp] theorem State.writeWord_cpAccess (a : Nat) (w : Word) : (s.writeWord a w).cpAccess = s.cpAccess := rfl
@[simp] theorem State.writeWord_mem (a : Nat) (w : Word) : (s.writeWord a w).mem = Memory.writeWord s.mem a w := rfl
@[simp] theorem State.writeWord_aborts (a : Nat) (w : Word) : (s.writeWord a w).aborts = s.aborts := rfl
@[simp] theorem State.writeWord_fetched (a : Nat) (w : Word) : (s.writeWord a w).fetched = s.fetched := rfl
@[simp] theorem State.writeWord_level (a : Nat) (w : Word) : (s.writeWord a w).level = s.level := rfl
@[simp] theorem State.writeWord_draws (a : Nat) (w : Word) : (s.writeWord a w).draws = s.draws := rfl

/-! ### noteFetch -/

@[simp] theorem State.noteFetch_sreg (a : Nat) : (s.noteFetch a).sreg = s.sreg := rfl
@[simp] theorem State.noteFetch_written (a : Nat) : (s.noteFetch a).written = s.written := rfl
@[simp] theorem State.noteFetch_fpscr (a : Nat) : (s.noteFetch a).fpscr = s.fpscr := rfl
@[simp] theorem State.noteFetch_fpexc (a : Nat) : (s.noteFetch a).fpexc = s.fpexc := rfl
@[simp] theorem State.noteFetch_fpinst (a : Nat) : (s.noteFetch a).fpinst = s.fpinst := rfl
@[simp] theorem State.noteFetch_fpinst2 (a : Nat) : (s.noteFetch a).fpinst2 = s.fpinst2 := rfl
@[simp] theorem State.noteFetch_fpinst2Defined (a : Nat) : (s.noteFetch a).fpinst2Defined = s.fpinst2Defined := rfl
@[simp] theorem State.noteFetch_win (a : Nat) : (s.noteFetch a).win = s.win := rfl
@[simp] theorem State.noteFetch_arm (a : Nat) : (s.noteFetch a).arm = s.arm := rfl
@[simp] theorem State.noteFetch_pc (a : Nat) : (s.noteFetch a).pc = s.pc := rfl
@[simp] theorem State.noteFetch_cpsr (a : Nat) : (s.noteFetch a).cpsr = s.cpsr := rfl
@[simp] theorem State.noteFetch_r14Und (a : Nat) : (s.noteFetch a).r14Und = s.r14Und := rfl
@[simp] theorem State.noteFetch_spsrUnd (a : Nat) : (s.noteFetch a).spsrUnd = s.spsrUnd := rfl
@[simp] theorem State.noteFetch_bigEndian (a : Nat) : (s.noteFetch a).bigEndian = s.bigEndian := rfl
@[simp] theorem State.noteFetch_highVectors (a : Nat) : (s.noteFetch a).highVectors = s.highVectors := rfl
@[simp] theorem State.noteFetch_cpAccess (a : Nat) : (s.noteFetch a).cpAccess = s.cpAccess := rfl
@[simp] theorem State.noteFetch_mem (a : Nat) : (s.noteFetch a).mem = s.mem := rfl
@[simp] theorem State.noteFetch_aborts (a : Nat) : (s.noteFetch a).aborts = s.aborts := rfl
@[simp] theorem State.noteFetch_stored (a : Nat) : (s.noteFetch a).stored = s.stored := rfl
@[simp] theorem State.noteFetch_level (a : Nat) : (s.noteFetch a).level = s.level := rfl
@[simp] theorem State.noteFetch_draws (a : Nat) : (s.noteFetch a).draws = s.draws := rfl

/-! ### takeUndefined -/

@[simp] theorem State.takeUndefined_sreg : (s.takeUndefined).sreg = s.sreg := rfl
@[simp] theorem State.takeUndefined_written : (s.takeUndefined).written = s.written := rfl
@[simp] theorem State.takeUndefined_fpscr : (s.takeUndefined).fpscr = s.fpscr := rfl
@[simp] theorem State.takeUndefined_fpexc : (s.takeUndefined).fpexc = s.fpexc := rfl
@[simp] theorem State.takeUndefined_fpinst : (s.takeUndefined).fpinst = s.fpinst := rfl
@[simp] theorem State.takeUndefined_fpinst2 : (s.takeUndefined).fpinst2 = s.fpinst2 := rfl
@[simp] theorem State.takeUndefined_fpinst2Defined : (s.takeUndefined).fpinst2Defined = s.fpinst2Defined := rfl
@[simp] theorem State.takeUndefined_win : (s.takeUndefined).win = .closed := rfl
@[simp] theorem State.takeUndefined_arm : (s.takeUndefined).arm = s.arm := rfl
@[simp] theorem State.takeUndefined_pc : (s.takeUndefined).pc = s.undefinedVector := rfl
@[simp] theorem State.takeUndefined_cpsr : (s.takeUndefined).cpsr = Cpsr.enterUndefined s.cpsr := rfl
@[simp] theorem State.takeUndefined_r14Und : (s.takeUndefined).r14Und = s.pc + 4#32 := rfl
@[simp] theorem State.takeUndefined_spsrUnd : (s.takeUndefined).spsrUnd = s.cpsr := rfl
@[simp] theorem State.takeUndefined_bigEndian : (s.takeUndefined).bigEndian = s.bigEndian := rfl
@[simp] theorem State.takeUndefined_highVectors : (s.takeUndefined).highVectors = s.highVectors := rfl
@[simp] theorem State.takeUndefined_cpAccess : (s.takeUndefined).cpAccess = s.cpAccess := rfl
@[simp] theorem State.takeUndefined_mem : (s.takeUndefined).mem = s.mem := rfl
@[simp] theorem State.takeUndefined_aborts : (s.takeUndefined).aborts = s.aborts := rfl
@[simp] theorem State.takeUndefined_fetched : (s.takeUndefined).fetched = s.fetched := rfl
@[simp] theorem State.takeUndefined_stored : (s.takeUndefined).stored = s.stored := rfl
@[simp] theorem State.takeUndefined_level : (s.takeUndefined).level = s.level := rfl
@[simp] theorem State.takeUndefined_draws : (s.takeUndefined).draws = s.draws := rfl

/-! ### returnFromUndefined -/

@[simp] theorem State.returnFromUndefined_sreg : (s.returnFromUndefined).sreg = s.sreg := rfl
@[simp] theorem State.returnFromUndefined_written : (s.returnFromUndefined).written = s.written := rfl
@[simp] theorem State.returnFromUndefined_fpscr : (s.returnFromUndefined).fpscr = s.fpscr := rfl
@[simp] theorem State.returnFromUndefined_fpexc : (s.returnFromUndefined).fpexc = s.fpexc := rfl
@[simp] theorem State.returnFromUndefined_fpinst : (s.returnFromUndefined).fpinst = s.fpinst := rfl
@[simp] theorem State.returnFromUndefined_fpinst2 : (s.returnFromUndefined).fpinst2 = s.fpinst2 := rfl
@[simp] theorem State.returnFromUndefined_fpinst2Defined : (s.returnFromUndefined).fpinst2Defined = s.fpinst2Defined := rfl
@[simp] theorem State.returnFromUndefined_win : (s.returnFromUndefined).win = s.win := rfl
@[simp] theorem State.returnFromUndefined_arm : (s.returnFromUndefined).arm = s.arm := rfl
@[simp] theorem State.returnFromUndefined_pc : (s.returnFromUndefined).pc = s.r14Und - 4#32 := rfl
@[simp] theorem State.returnFromUndefined_cpsr : (s.returnFromUndefined).cpsr = s.spsrUnd := rfl
@[simp] theorem State.returnFromUndefined_r14Und : (s.returnFromUndefined).r14Und = s.r14Und := rfl
@[simp] theorem State.returnFromUndefined_spsrUnd : (s.returnFromUndefined).spsrUnd = s.spsrUnd := rfl
@[simp] theorem State.returnFromUndefined_bigEndian : (s.returnFromUndefined).bigEndian = s.bigEndian := rfl
@[simp] theorem State.returnFromUndefined_highVectors : (s.returnFromUndefined).highVectors = s.highVectors := rfl
@[simp] theorem State.returnFromUndefined_cpAccess : (s.returnFromUndefined).cpAccess = s.cpAccess := rfl
@[simp] theorem State.returnFromUndefined_mem : (s.returnFromUndefined).mem = s.mem := rfl
@[simp] theorem State.returnFromUndefined_aborts : (s.returnFromUndefined).aborts = s.aborts := rfl
@[simp] theorem State.returnFromUndefined_fetched : (s.returnFromUndefined).fetched = s.fetched := rfl
@[simp] theorem State.returnFromUndefined_stored : (s.returnFromUndefined).stored = s.stored := rfl
@[simp] theorem State.returnFromUndefined_level : (s.returnFromUndefined).level = s.level := rfl
@[simp] theorem State.returnFromUndefined_draws : (s.returnFromUndefined).draws = s.draws := rfl

end Sys2Proof.Machine
end

