-- ==== Sys2Proof/Laws/Gate.lean ====
section
/-! SUPPORT. For each shared operation of the gate and of the transfers, one lemma that says once all it can do when it
answers a next state. -/

namespace Sys2Proof.Machine

/-! ### The gate -/

/-- A next state of `checked` is a cancelled instruction, a trap, or what the instruction itself answers. -/
theorem checked_next {i : Instr} {a : Access} {go : State → Result} {s t : State}
    (h : checked i a go s = .next t) :
    (condPassed i.cond s.cpsr = false ∧ t = s.advance) ∨
    (condPassed i.cond s.cpsr = true ∧ s.accessible a = false ∧ t = s.takeUndefined) ∨
    (condPassed i.cond s.cpsr = true ∧ s.accessible a = true ∧ i.unpredictable = none ∧ go s = .next t) := by
  unfold checked at h
  cases hc : condPassed i.cond s.cpsr
  · simp [hc] at h; exact .inl ⟨rfl, h.symm⟩
  · cases ha : s.accessible a
    · simp [hc, ha] at h; exact .inr (.inl ⟨rfl, rfl, h.symm⟩)
    · refine .inr (.inr ⟨rfl, rfl, ?_⟩)
      simp only [hc, ha, Bool.not_true, Bool.false_eq_true, if_false] at h
      cases hu : i.unpredictable with
      | some why => simp [hu] at h
      | none => simpa [hu] using h

/-- What `checked` answers when the instruction is admitted. -/
theorem checked_ready {i : Instr} {a : Access} {go : State → Result} {s : State}
    (hc : condPassed i.cond s.cpsr = true) (ha : s.accessible a = true) (hu : i.unpredictable = none) :
    checked i a go s = go s := by
  simp [checked, hc, ha, hu]

/-- A carried-on result is a next state only if both parts are. -/
theorem thenDo_next {r : Result} {f : State → Result} {t : State} (h : thenDo r f = .next t) :
    ∃ u, r = .next u ∧ f u = .next t := by
  cases r with
  | next u => exact ⟨u, rfl, h⟩
  | fault e => simp [thenDo] at h
  | refused e => simp [thenDo] at h

/-- The trigger takes the Undefined Instruction exception at level H; at level A the support code runs first. -/
theorem trigger_next {go : State → Result} {s t : State} (h : trigger go s = .next t) :
    (s.level = .hardware ∧ t = s.takeUndefined) ∨
    (s.level = .architecture ∧ ∃ u, s.supportCode = .next u ∧ go u = .next t) := by
  unfold trigger at h
  cases hl : s.level with
  | hardware => simp [hl] at h; exact .inl ⟨rfl, h.symm⟩
  | architecture => simp [hl] at h; exact .inr ⟨rfl, thenDo_next h⟩

/-- A transfer runs, before or after a draw, or is the trigger. -/
theorem issueTransfer_next {writes reads : Word} {go : State → Result} {s t : State}
    (h : issueTransfer writes reads go s = .next t) :
    (s.exceptional = false ∧ go s = .next t) ∨
    (s.exceptional = true ∧ ∃ u, (u = s ∨ u = s.draw.2) ∧ trigger go u = .next t) ∨
    (s.exceptional = true ∧ s.win ≠ .closed ∧ go s.draw.2 = .next t) := by
  unfold issueTransfer at h
  cases he : s.exceptional
  · simp [he] at h; exact .inl ⟨rfl, h⟩
  · simp only [he, Bool.not_true, Bool.false_eq_true, if_false] at h
    refine .inr ?_
    cases hw : s.win with
    | closed => simp only [hw] at h; exact .inl ⟨rfl, s, .inl rfl, h⟩
    | opened dst src slot =>
      simp only [hw] at h
      split at h
      · exact .inl ⟨rfl, s, .inl rfl, h⟩
      · split at h
        · exact .inr ⟨rfl, by simp, h⟩
        · exact .inl ⟨rfl, s.draw.2, .inr rfl, h⟩

/-- A serializing instruction closes the window, then runs or is the trigger. -/
theorem issueSerial_next {triggers : Bool} {go : State → Result} {s t : State}
    (h : issueSerial triggers go s = .next t) :
    (triggers = true ∧ Fpexc.ex s.fpexc = true ∧ trigger go s.closeWin = .next t) ∨ go s.closeWin = .next t := by
  unfold issueSerial at h
  split at h
  next hb => simp only [Bool.and_eq_true] at hb; exact .inl ⟨hb.1, hb.2, h⟩
  · exact .inr h

/-- A CDP instruction that starts runs, its LEN, STRIDE and vectors being legal. -/
theorem startCdp_next {word : Word} {c : Cdp} {s t : State} (h : startCdp word c s = .next t) :
    c.refusal s.fpscr = none ∧ t = s.runCdp word c := by
  unfold startCdp at h
  cases hr : c.refusal s.fpscr with
  | some r => simp [hr] at h
  | none => simp only [hr, Host.Outcome.next.injEq] at h; exact ⟨rfl, h.symm⟩

/-- A CDP instruction with a legal meaning starts. -/
theorem startCdp_legal {c : Cdp} {s : State} (h : c.refusal s.fpscr = none) (word : Word) :
    startCdp word c s = .next (s.runCdp word c) := by simp [startCdp, h]

/-- A CDP instruction runs, is the trigger, or is captured in the pretrigger slot. -/
theorem issueCdp_next {word : Word} {c : Cdp} {s t : State} (h : issueCdp word c s = .next t) :
    (s.exceptional = false ∧ c.refusal s.fpscr = none ∧ t = s.runCdp word c) ∨
    (s.exceptional = true ∧ ∃ u, (u = s ∨ u = s.draw.2) ∧ trigger (startCdp word c) u = .next t) ∨
    (s.exceptional = true ∧ s.win ≠ .closed ∧ c.refusal s.fpscr = none ∧ t = s.draw.2.capture word) := by
  unfold issueCdp at h
  cases he : s.exceptional
  · simp only [he, Bool.not_false, if_true] at h
    exact .inl ⟨rfl, startCdp_next h⟩
  · simp only [he, Bool.not_true, Bool.false_eq_true, if_false] at h
    refine .inr ?_
    cases hw : s.win with
    | closed =>
      simp only [hw] at h
      split at h
      · cases h
      · exact .inl ⟨rfl, s, .inl rfl, h⟩
    | opened dst src slot =>
      cases hr : c.refusal s.fpscr with
      | some r => simp [hw, hr] at h
      | none =>
        simp only [hw, hr] at h
        split at h
        · split at h
          · simp only [Host.Outcome.next.injEq] at h
            exact .inr ⟨rfl, by simp, rfl, h.symm⟩
          · exact .inl ⟨rfl, s.draw.2, .inr rfl, h⟩
        · exact .inl ⟨rfl, s, .inl rfl, h⟩

/-! ### The loads and stores -/

/-- A load that answers a next state loads every word, writes the base and advances. -/
theorem State.load_next {s t : State} {regs : List (BitVec 5)} {start : Word} {words : Nat} {rn : ArmReg}
    {wb : Option Word} (h : s.load regs start words rn wb = .next t) :
    s.addressRefusal start words [] = none ∧ (s.untilAbort (withAddrs start.toNat regs)).2 = none ∧
      t = ((s.loadWords (withAddrs start.toNat regs)).writeBase rn wb).advance := by
  unfold State.load at h
  cases ha : s.addressRefusal start words [] with
  | some r => simp [ha] at h
  | none =>
    simp only [ha] at h
    rcases hu : s.untilAbort (withAddrs start.toNat regs) with ⟨done, _ | a⟩
    · simp only [hu, Host.Outcome.next.injEq] at h
      exact ⟨rfl, rfl, h.symm⟩
    · simp [hu] at h

/-- A store that answers a next state stores every word, writes the base and advances. -/
theorem State.store_next {s t : State} {regs : List (BitVec 5)} {start : Word} {words : Nat} {rn : ArmReg}
    {wb : Option Word} (h : s.store regs start words rn wb = .next t) :
    s.addressRefusal start words (withAddrs start.toNat regs) = none ∧
      (s.untilAbort (withAddrs start.toNat regs)).2 = none ∧
      t = ((s.storeWords (withAddrs start.toNat regs)).writeBase rn wb).advance := by
  unfold State.store at h
  cases ha : s.addressRefusal start words (withAddrs start.toNat regs) with
  | some r => simp [ha] at h
  | none =>
    simp only [ha] at h
    rcases hu : s.untilAbort (withAddrs start.toNat regs) with ⟨done, _ | a⟩
    · simp only [hu, Host.Outcome.next.injEq] at h
      exact ⟨rfl, rfl, h.symm⟩
    · simp [hu] at h

/-- No word of a transfer aborts: the whole transfer is done. -/
theorem State.untilAbort_none {s : State} {ws : List (BitVec 5 × Nat)} (h : ∀ w ∈ ws, s.abortsAt w.2 = false) :
    s.untilAbort ws = (ws, none) := by
  induction ws with
  | nil => rfl
  | cons w rest ih =>
    obtain ⟨r, a⟩ := w
    have ha : s.abortsAt a = false := h (r, a) (by simp)
    simp [State.untilAbort, ha, ih (fun w hw => h w (by simp [hw]))]

/-! ### The support code -/

/-- The support code enters the exception on the trigger, completes iterations and returns to the trigger. -/
theorem State.supportCode_next {s t : State} (h : s.supportCode = .next t) :
    ∃ u v w, (u = s ∨ u = s.drawWord.2) ∧
      (u.takeUndefined.setFpexc (Fpexc.clearState s.fpexc)).completeExceptional s.fpinst
        (Fpexc.remaining s.fpexc) = .next v ∧
      (v = w ∨ v.completeCaptured (s.readSys .fpinst2).1 = .next w) ∧ t = w.returnFromUndefined := by
  unfold State.supportCode at h
  obtain ⟨v, hv, h⟩ := thenDo_next h
  obtain ⟨w, hw, h⟩ := thenDo_next h
  simp only [Host.Outcome.next.injEq] at h
  refine ⟨if Fpexc.fp2v s.fpexc then (s.readSys .fpinst2).2 else s, v, w, ?_, hv, ?_, h.symm⟩
  · by_cases hf : Fpexc.fp2v s.fpexc = true
    · by_cases hd : s.fpinst2Defined = true <;> simp [hf, hd, State.readSys]
    · simp [hf]
  · by_cases hf : Fpexc.fp2v s.fpexc = true
    · simp only [hf, if_true] at hw; exact .inr hw
    · simp only [hf, Bool.false_eq_true, if_false, Host.Outcome.next.injEq] at hw; exact .inl hw

end Sys2Proof.Machine
end

