-- ==== Sys2Proof/Laws/Cdp.lean ====
section
/-! SUPPORT. The CDP instructions: every one is `execCdp`, a scalar one is one iteration, an iteration that nothing
makes bounce completes, and no condition holds in RunFast mode (40_cdp_common.md R161, R170, R190). -/

namespace Sys2Proof.Machine

/-- Every CDP instruction is the shared operation on its own record. -/
theorem exec_cdpOf {i : Instr} {c : Cdp} (h : cdpOf i = some c) (s : State) : exec i s = execCdp i c s := by
  cases i <;> simp only [cdpOf, Option.some.injEq, reduceCtorEq] at h <;> subst h <;> rfl

/-- A CDP instruction that executes normally runs its iterations. -/
theorem exec_runs {i : Instr} {c : Cdp} {s : State} (h : s.Runs i c) :
    exec i s = .next (s.runCdp (encode i) c) := by
  obtain ⟨hc, hu, hr, hp, ha, he⟩ := h
  rw [exec_cdpOf hc, execCdp, checked_ready hp ha hu]
  simp [issueCdp, he, startCdp_legal hr]

/-! ### Scalar instructions -/

theorem Cdp.shape_scalar {c : Cdp} {w : Word} (h : c.Scalar w) : c.shape w = ⟨1, false, false⟩ := by
  rcases h.2 with h | h | h <;> simp [Cdp.shape, h]

theorem Cdp.refusal_scalar {c : Cdp} {w : Word} (h : c.Scalar w) : c.refusal w = none := by
  simp [Cdp.refusal, Cdp.shape_scalar h, h.1]

@[simp] theorem Cdp.at_fixed (c : Cdp) (n : Nat) (w : Word) (k : Nat) : c.at ⟨n, false, false⟩ w k = c := rfl

/-! ### Iterations that do not bounce -/

theorem State.drawIf_false (s : State) : s.drawIf false = (false, s) := rfl

/-- An iteration with no condition draws nothing and does not bounce. -/
theorem State.decideBounce_clear {c : Check} (s : State) (h : c.clear = true) : s.decideBounce c = (none, s) := by
  simp only [Check.clear, Bool.and_eq_true, Bool.not_eq_true'] at h
  simp [State.decideBounce, h.1.1, h.1.2, h.2, State.drawIf_false]

/-- One iteration of `runIterations` that has no condition. -/
theorem State.runIterations_clear (s : State) (word : Word) (c : Cdp) (sh : Shape) (w : Word) (rest : Nat)
    (h : (iterH c.op c.p w (s.source (c.at sh w (sh.iters - (rest + 1))))).1.clear = true) :
    s.runIterations word c sh w (rest + 1) =
      State.runIterations
        (s.complete (c.at sh w (sh.iters - (rest + 1)))
          (iterH c.op c.p w (s.source (c.at sh w (sh.iters - (rest + 1))))).2.1
          (iterH c.op c.p w (s.source (c.at sh w (sh.iters - (rest + 1))))).2.2) word c sh w rest := by
  rw [State.runIterations]
  simp only [State.decideBounce_clear s h]

/-- A scalar instruction whose iteration has no condition completes in hardware. -/
theorem State.runCdp_scalar_clear (s : State) (word : Word) (c : Cdp) (hs : c.Scalar s.fpscr)
    (h : (iterH c.op c.p s.fpscr (s.source c)).1.clear = true) :
    s.runCdp word c =
      (s.complete c (iterH c.op c.p s.fpscr (s.source c)).2.1 (iterH c.op c.p s.fpscr (s.source c)).2.2).advance := by
  simp only [State.runCdp, Cdp.shape_scalar hs]
  rw [State.runIterations_clear _ _ _ _ _ _ (by simpa using h)]
  simp [State.runIterations]

/-- A scalar instruction whose iteration must bounce enters the exceptional state. -/
theorem State.runCdp_scalar_must (s : State) (word : Word) (c : Cdp) (hs : c.Scalar s.fpscr)
    (h : (iterH c.op c.p s.fpscr (s.source c)).1.must = true) :
    ∃ u fl, (s.decideBounce (iterH c.op c.p s.fpscr (s.source c)).1) = (some fl, u) ∧
      s.runCdp word c =
        (u.bounce word c ⟨1, false, false⟩ s.fpscr 0 (iterH c.op c.p s.fpscr (s.source c)).1.inSub fl).advance := by
  simp only [State.runCdp, Cdp.shape_scalar hs, State.runIterations, Nat.sub_self, Cdp.at_fixed]
  simp [State.decideBounce, h]

/-! ### RunFast mode -/

theorem runFast_bits {w : Word} (h : Fpscr.runFast w = true) :
    Fpscr.fz w = true ∧ Fpscr.dn w = true ∧ Fpscr.ide w = false ∧ Fpscr.ixe w = false ∧ Fpscr.ufe w = false ∧
      Fpscr.ofe w = false ∧ Fpscr.dze w = false ∧ Fpscr.ioe w = false := by
  simpa [Fpscr.runFast, and_assoc] using h

theorem Check.threshold_clear {c : Check} (h : c.clear = true) (b : Bool) : (c.threshold b false false).clear = true := by
  simpa [Check.threshold, Check.clear, Check.must] using h

/-- No condition holds on any iteration in RunFast mode. -/
theorem iterH_runFast_clear (o : CdpOp) (p : Prec) (w : Word) (x : Source) (h : Fpscr.runFast w = true) :
    (iterH o p w x).1.clear = true := by
  obtain ⟨hfz, hdn, hide, hixe, hufe, hofe, hdze, hioe⟩ := runFast_bits h
  cases o <;>
    simp [iterH, addH, mulH, macH, divH, sqrtH, cvtH, fromIntH, toIntH, cmpH, copyH, sourceCheck, potOver, potUnderAdd,
      potUnderMul, potUnderDiv, Check.threshold, Check.addInvalid, Check.clear, Check.must, *]

end Sys2Proof.Machine
end

