-- ==== Sys2Proof/Laws/Decode.lean ====
section
/-! SUPPORT. The fields of an encoded word, one lemma per field of each of the four word formats, and the inverse pairs of
the field codes (30_encoding.md R122 to R138). -/

namespace Sys2Proof

/-! ### Codes -/

@[simp] theorem condOf_code (c : Cond) : condOf c.code = some c := by
  cases c <;> rfl

theorem code_condOf {b : BitVec 4} {c : Cond} (h : condOf b = some c) : c.code = b := by
  revert b c
  decide

@[simp] theorem sysRegOf_code (r : SysReg) : sysRegOf r.code = some r := by
  cases r <;> rfl

theorem code_sysRegOf {b : BitVec 4} {r : SysReg} (h : sysRegOf b = some r) : r.code = b := by
  revert b r
  decide

@[simp] theorem upper_evenReg (d : DReg) : upper (evenReg d) = d := by
  revert d; decide

@[simp] theorem lowest_evenReg (d : DReg) : lowest (evenReg d) = 0#1 := by
  revert d; decide

@[simp] theorem isOdd_evenReg (d : DReg) : isOdd (evenReg d) = false := by
  revert d; decide

theorem evenReg_upper {r : BitVec 5} (h : isOdd r = false) : evenReg (upper r) = r := by
  revert r; decide

@[simp] theorem upper_append_lowest (r : BitVec 5) : upper r ++ lowest r = r := by
  revert r; decide

@[simp] theorem upper_append (a : BitVec 4) (b : BitVec 1) : upper (a ++ b) = a := by
  revert a b; decide

@[simp] theorem lowest_append (a : BitVec 4) (b : BitVec 1) : lowest (a ++ b) = b := by
  revert a b; decide

@[simp] theorem bit1_getLsbD (b : Bool) : (bit1 b).getLsbD 0 = b := by
  cases b <;> rfl

/-! ### cdpWord -/

theorem cdpWord_cond (c : Cond) (pqrs : BitVec 4) (dbl : BitVec 1) (d n m : BitVec 5) :
    field (cdpWord c pqrs dbl d n m) 28 4 = c.code := by
  apply BitVec.eq_of_getLsbD_eq
  intro i hi
  interval_cases i <;>
    (simp only [field, upper, lowest, cdpWord, BitVec.getLsbD_append, BitVec.getLsbD_extractLsb']; simp)

theorem cdpWord_class (c : Cond) (pqrs : BitVec 4) (dbl : BitVec 1) (d n m : BitVec 5) :
    field (cdpWord c pqrs dbl d n m) 24 4 = 0b1110#4 := by
  apply BitVec.eq_of_getLsbD_eq
  intro i hi
  interval_cases i <;>
    (simp only [field, upper, lowest, cdpWord, BitVec.getLsbD_append, BitVec.getLsbD_extractLsb']; simp)

theorem cdpWord_cp (c : Cond) (pqrs : BitVec 4) (dbl : BitVec 1) (d n m : BitVec 5) :
    field (cdpWord c pqrs dbl d n m) 9 3 = 0b101#3 := by
  apply BitVec.eq_of_getLsbD_eq
  intro i hi
  interval_cases i <;>
    (simp only [field, upper, lowest, cdpWord, BitVec.getLsbD_append, BitVec.getLsbD_extractLsb']; simp)

theorem cdpWord_bit4 (c : Cond) (pqrs : BitVec 4) (dbl : BitVec 1) (d n m : BitVec 5) :
    bitAt (cdpWord c pqrs dbl d n m) 4 = false := by
  simp only [bitAt, upper, lowest, cdpWord, BitVec.getLsbD_append, BitVec.getLsbD_extractLsb']
  simp

theorem cdpWord_dbl (c : Cond) (pqrs : BitVec 4) (dbl : BitVec 1) (d n m : BitVec 5) :
    bitAt (cdpWord c pqrs dbl d n m) 8 = dbl.getLsbD 0 := by
  simp only [bitAt, upper, lowest, cdpWord, BitVec.getLsbD_append, BitVec.getLsbD_extractLsb']
  simp

theorem cdpWord_fieldD (c : Cond) (pqrs : BitVec 4) (dbl : BitVec 1) (d n m : BitVec 5) :
    fieldD (cdpWord c pqrs dbl d n m) = d := by
  apply BitVec.eq_of_getLsbD_eq
  intro i hi
  interval_cases i <;>
    (simp only [fieldD, field, upper, lowest, cdpWord, BitVec.getLsbD_append, BitVec.getLsbD_extractLsb']; simp)

theorem cdpWord_fieldN (c : Cond) (pqrs : BitVec 4) (dbl : BitVec 1) (d n m : BitVec 5) :
    fieldN (cdpWord c pqrs dbl d n m) = n := by
  apply BitVec.eq_of_getLsbD_eq
  intro i hi
  interval_cases i <;>
    (simp only [fieldN, field, upper, lowest, cdpWord, BitVec.getLsbD_append, BitVec.getLsbD_extractLsb']; simp)

theorem cdpWord_fieldM (c : Cond) (pqrs : BitVec 4) (dbl : BitVec 1) (d n m : BitVec 5) :
    fieldM (cdpWord c pqrs dbl d n m) = m := by
  apply BitVec.eq_of_getLsbD_eq
  intro i hi
  interval_cases i <;>
    (simp only [fieldM, field, upper, lowest, cdpWord, BitVec.getLsbD_append, BitVec.getLsbD_extractLsb']; simp)

theorem cdpWord_pqrs (c : Cond) (pqrs : BitVec 4) (dbl : BitVec 1) (d n m : BitVec 5) :
    field (cdpWord c pqrs dbl d n m) 23 1 ++ field (cdpWord c pqrs dbl d n m) 20 2 ++ field (cdpWord c pqrs dbl d n m) 6 1 = pqrs := by
  apply BitVec.eq_of_getLsbD_eq
  intro i hi
  interval_cases i <;>
    (simp only [field, upper, lowest, cdpWord, BitVec.getLsbD_append, BitVec.getLsbD_extractLsb']; simp)

/-! ### loadStoreWord -/

theorem loadStoreWord_cond (c : Cond) (p u w l dbl : BitVec 1) (rn : ArmReg) (d : BitVec 5) (off : BitVec 8) :
    field (loadStoreWord c p u w l dbl rn d off) 28 4 = c.code := by
  apply BitVec.eq_of_getLsbD_eq
  intro i hi
  interval_cases i <;>
    (simp only [field, upper, lowest, loadStoreWord, BitVec.getLsbD_append, BitVec.getLsbD_extractLsb']; simp)

theorem loadStoreWord_class (c : Cond) (p u w l dbl : BitVec 1) (rn : ArmReg) (d : BitVec 5) (off : BitVec 8) :
    field (loadStoreWord c p u w l dbl rn d off) 24 4 = 0b110#3 ++ p := by
  apply BitVec.eq_of_getLsbD_eq
  intro i hi
  interval_cases i <;>
    (simp only [field, upper, lowest, loadStoreWord, BitVec.getLsbD_append, BitVec.getLsbD_extractLsb']; simp)

theorem loadStoreWord_cp (c : Cond) (p u w l dbl : BitVec 1) (rn : ArmReg) (d : BitVec 5) (off : BitVec 8) :
    field (loadStoreWord c p u w l dbl rn d off) 9 3 = 0b101#3 := by
  apply BitVec.eq_of_getLsbD_eq
  intro i hi
  interval_cases i <;>
    (simp only [field, upper, lowest, loadStoreWord, BitVec.getLsbD_append, BitVec.getLsbD_extractLsb']; simp)

theorem loadStoreWord_dbl (c : Cond) (p u w l dbl : BitVec 1) (rn : ArmReg) (d : BitVec 5) (off : BitVec 8) :
    bitAt (loadStoreWord c p u w l dbl rn d off) 8 = dbl.getLsbD 0 := by
  simp only [bitAt, upper, lowest, loadStoreWord, BitVec.getLsbD_append, BitVec.getLsbD_extractLsb']
  simp

theorem loadStoreWord_u (c : Cond) (p u w l dbl : BitVec 1) (rn : ArmReg) (d : BitVec 5) (off : BitVec 8) :
    bitAt (loadStoreWord c p u w l dbl rn d off) 23 = u.getLsbD 0 := by
  simp only [bitAt, upper, lowest, loadStoreWord, BitVec.getLsbD_append, BitVec.getLsbD_extractLsb']
  simp

theorem loadStoreWord_fieldD (c : Cond) (p u w l dbl : BitVec 1) (rn : ArmReg) (d : BitVec 5) (off : BitVec 8) :
    fieldD (loadStoreWord c p u w l dbl rn d off) = d := by
  apply BitVec.eq_of_getLsbD_eq
  intro i hi
  interval_cases i <;>
    (simp only [fieldD, field, upper, lowest, loadStoreWord, BitVec.getLsbD_append, BitVec.getLsbD_extractLsb']; simp)

theorem loadStoreWord_rn (c : Cond) (p u w l dbl : BitVec 1) (rn : ArmReg) (d : BitVec 5) (off : BitVec 8) :
    field (loadStoreWord c p u w l dbl rn d off) 16 4 = rn := by
  apply BitVec.eq_of_getLsbD_eq
  intro i hi
  interval_cases i <;>
    (simp only [field, upper, lowest, loadStoreWord, BitVec.getLsbD_append, BitVec.getLsbD_extractLsb']; simp)

theorem loadStoreWord_off (c : Cond) (p u w l dbl : BitVec 1) (rn : ArmReg) (d : BitVec 5) (off : BitVec 8) :
    field (loadStoreWord c p u w l dbl rn d off) 0 8 = off := by
  apply BitVec.eq_of_getLsbD_eq
  intro i hi
  interval_cases i <;>
    (simp only [field, upper, lowest, loadStoreWord, BitVec.getLsbD_append, BitVec.getLsbD_extractLsb']; simp)

theorem loadStoreWord_puwl (c : Cond) (p u w l dbl : BitVec 1) (rn : ArmReg) (d : BitVec 5) (off : BitVec 8) :
    field (loadStoreWord c p u w l dbl rn d off) 23 2 ++ field (loadStoreWord c p u w l dbl rn d off) 20 2 = p ++ u ++ w ++ l := by
  apply BitVec.eq_of_getLsbD_eq
  intro i hi
  interval_cases i <;>
    (simp only [field, upper, lowest, loadStoreWord, BitVec.getLsbD_append, BitVec.getLsbD_extractLsb']; simp)

theorem loadStoreWord_notPair (c : Cond) (p u w l dbl : BitVec 1) (rn : ArmReg) (d : BitVec 5) (off : BitVec 8) :
    field (loadStoreWord c p u w l dbl rn d off) 21 3 = u ++ lowest d ++ w := by
  apply BitVec.eq_of_getLsbD_eq
  intro i hi
  interval_cases i <;>
    (simp only [field, upper, lowest, loadStoreWord, BitVec.getLsbD_append, BitVec.getLsbD_extractLsb']; simp)

/-! ### transferWord -/

theorem transferWord_cond (c : Cond) (opc : BitVec 3) (l dbl : BitVec 1) (n : BitVec 5) (rd : ArmReg) (sbz : BitVec 6) :
    field (transferWord c opc l dbl n rd sbz) 28 4 = c.code := by
  apply BitVec.eq_of_getLsbD_eq
  intro i hi
  interval_cases i <;>
    (simp only [field, upper, lowest, transferWord, BitVec.getLsbD_append, BitVec.getLsbD_extractLsb']; simp)

theorem transferWord_class (c : Cond) (opc : BitVec 3) (l dbl : BitVec 1) (n : BitVec 5) (rd : ArmReg) (sbz : BitVec 6) :
    field (transferWord c opc l dbl n rd sbz) 24 4 = 0b1110#4 := by
  apply BitVec.eq_of_getLsbD_eq
  intro i hi
  interval_cases i <;>
    (simp only [field, upper, lowest, transferWord, BitVec.getLsbD_append, BitVec.getLsbD_extractLsb']; simp)

theorem transferWord_cp (c : Cond) (opc : BitVec 3) (l dbl : BitVec 1) (n : BitVec 5) (rd : ArmReg) (sbz : BitVec 6) :
    field (transferWord c opc l dbl n rd sbz) 9 3 = 0b101#3 := by
  apply BitVec.eq_of_getLsbD_eq
  intro i hi
  interval_cases i <;>
    (simp only [field, upper, lowest, transferWord, BitVec.getLsbD_append, BitVec.getLsbD_extractLsb']; simp)

theorem transferWord_bit4 (c : Cond) (opc : BitVec 3) (l dbl : BitVec 1) (n : BitVec 5) (rd : ArmReg) (sbz : BitVec 6) :
    bitAt (transferWord c opc l dbl n rd sbz) 4 = true := by
  simp only [bitAt, upper, lowest, transferWord, BitVec.getLsbD_append, BitVec.getLsbD_extractLsb']
  simp

theorem transferWord_op (c : Cond) (opc : BitVec 3) (l dbl : BitVec 1) (n : BitVec 5) (rd : ArmReg) (sbz : BitVec 6) :
    field (transferWord c opc l dbl n rd sbz) 20 4 ++ field (transferWord c opc l dbl n rd sbz) 8 1 = opc ++ l ++ dbl := by
  apply BitVec.eq_of_getLsbD_eq
  intro i hi
  interval_cases i <;>
    (simp only [field, upper, lowest, transferWord, BitVec.getLsbD_append, BitVec.getLsbD_extractLsb']; simp)

theorem transferWord_fieldN (c : Cond) (opc : BitVec 3) (l dbl : BitVec 1) (n : BitVec 5) (rd : ArmReg) (sbz : BitVec 6) :
    fieldN (transferWord c opc l dbl n rd sbz) = n := by
  apply BitVec.eq_of_getLsbD_eq
  intro i hi
  interval_cases i <;>
    (simp only [fieldN, field, upper, lowest, transferWord, BitVec.getLsbD_append, BitVec.getLsbD_extractLsb']; simp)

theorem transferWord_rd (c : Cond) (opc : BitVec 3) (l dbl : BitVec 1) (n : BitVec 5) (rd : ArmReg) (sbz : BitVec 6) :
    field (transferWord c opc l dbl n rd sbz) 12 4 = rd := by
  apply BitVec.eq_of_getLsbD_eq
  intro i hi
  interval_cases i <;>
    (simp only [field, upper, lowest, transferWord, BitVec.getLsbD_append, BitVec.getLsbD_extractLsb']; simp)

theorem transferWord_sbz (c : Cond) (opc : BitVec 3) (l dbl : BitVec 1) (n : BitVec 5) (rd : ArmReg) (sbz : BitVec 6) :
    field (transferWord c opc l dbl n rd sbz) 5 2 ++ field (transferWord c opc l dbl n rd sbz) 0 4 = sbz := by
  apply BitVec.eq_of_getLsbD_eq
  intro i hi
  interval_cases i <;>
    (simp only [field, upper, lowest, transferWord, BitVec.getLsbD_append, BitVec.getLsbD_extractLsb']; simp)

theorem transferWord_bit7 (c : Cond) (opc : BitVec 3) (l dbl : BitVec 1) (n : BitVec 5) (rd : ArmReg) (sbz : BitVec 6) :
    field (transferWord c opc l dbl n rd sbz) 7 1 = lowest n := by
  apply BitVec.eq_of_getLsbD_eq
  intro i hi
  interval_cases i
  simp only [field, upper, lowest, transferWord, BitVec.getLsbD_append, BitVec.getLsbD_extractLsb']
  simp

/-! ### pairWord -/

theorem pairWord_cond (c : Cond) (l dbl : BitVec 1) (rn rd : ArmReg) (m : BitVec 5) :
    field (pairWord c l dbl rn rd m) 28 4 = c.code := by
  apply BitVec.eq_of_getLsbD_eq
  intro i hi
  interval_cases i <;>
    (simp only [field, upper, lowest, pairWord, BitVec.getLsbD_append, BitVec.getLsbD_extractLsb']; simp)

theorem pairWord_class (c : Cond) (l dbl : BitVec 1) (rn rd : ArmReg) (m : BitVec 5) :
    field (pairWord c l dbl rn rd m) 24 4 = 0b1100#4 := by
  apply BitVec.eq_of_getLsbD_eq
  intro i hi
  interval_cases i <;>
    (simp only [field, upper, lowest, pairWord, BitVec.getLsbD_append, BitVec.getLsbD_extractLsb']; simp)

theorem pairWord_pairClass (c : Cond) (l dbl : BitVec 1) (rn rd : ArmReg) (m : BitVec 5) :
    field (pairWord c l dbl rn rd m) 21 3 = 0b010#3 := by
  apply BitVec.eq_of_getLsbD_eq
  intro i hi
  interval_cases i <;>
    (simp only [field, upper, lowest, pairWord, BitVec.getLsbD_append, BitVec.getLsbD_extractLsb']; simp)

theorem pairWord_cp (c : Cond) (l dbl : BitVec 1) (rn rd : ArmReg) (m : BitVec 5) :
    field (pairWord c l dbl rn rd m) 9 3 = 0b101#3 := by
  apply BitVec.eq_of_getLsbD_eq
  intro i hi
  interval_cases i <;>
    (simp only [field, upper, lowest, pairWord, BitVec.getLsbD_append, BitVec.getLsbD_extractLsb']; simp)

theorem pairWord_bit4 (c : Cond) (l dbl : BitVec 1) (rn rd : ArmReg) (m : BitVec 5) :
    bitAt (pairWord c l dbl rn rd m) 4 = true := by
  simp only [bitAt, upper, lowest, pairWord, BitVec.getLsbD_append, BitVec.getLsbD_extractLsb']
  simp

theorem pairWord_bit6 (c : Cond) (l dbl : BitVec 1) (rn rd : ArmReg) (m : BitVec 5) :
    bitAt (pairWord c l dbl rn rd m) 6 = false := by
  simp only [bitAt, upper, lowest, pairWord, BitVec.getLsbD_append, BitVec.getLsbD_extractLsb']
  simp

theorem pairWord_bit7 (c : Cond) (l dbl : BitVec 1) (rn rd : ArmReg) (m : BitVec 5) :
    bitAt (pairWord c l dbl rn rd m) 7 = false := by
  simp only [bitAt, upper, lowest, pairWord, BitVec.getLsbD_append, BitVec.getLsbD_extractLsb']
  simp

theorem pairWord_l (c : Cond) (l dbl : BitVec 1) (rn rd : ArmReg) (m : BitVec 5) :
    bitAt (pairWord c l dbl rn rd m) 20 = l.getLsbD 0 := by
  simp only [bitAt, upper, lowest, pairWord, BitVec.getLsbD_append, BitVec.getLsbD_extractLsb']
  simp

theorem pairWord_dbl (c : Cond) (l dbl : BitVec 1) (rn rd : ArmReg) (m : BitVec 5) :
    bitAt (pairWord c l dbl rn rd m) 8 = dbl.getLsbD 0 := by
  simp only [bitAt, upper, lowest, pairWord, BitVec.getLsbD_append, BitVec.getLsbD_extractLsb']
  simp

theorem pairWord_fieldM (c : Cond) (l dbl : BitVec 1) (rn rd : ArmReg) (m : BitVec 5) :
    fieldM (pairWord c l dbl rn rd m) = m := by
  apply BitVec.eq_of_getLsbD_eq
  intro i hi
  interval_cases i <;>
    (simp only [fieldM, field, upper, lowest, pairWord, BitVec.getLsbD_append, BitVec.getLsbD_extractLsb']; simp)

theorem pairWord_rn (c : Cond) (l dbl : BitVec 1) (rn rd : ArmReg) (m : BitVec 5) :
    field (pairWord c l dbl rn rd m) 16 4 = rn := by
  apply BitVec.eq_of_getLsbD_eq
  intro i hi
  interval_cases i <;>
    (simp only [field, upper, lowest, pairWord, BitVec.getLsbD_append, BitVec.getLsbD_extractLsb']; simp)

theorem pairWord_rd (c : Cond) (l dbl : BitVec 1) (rn rd : ArmReg) (m : BitVec 5) :
    field (pairWord c l dbl rn rd m) 12 4 = rd := by
  apply BitVec.eq_of_getLsbD_eq
  intro i hi
  interval_cases i <;>
    (simp only [field, upper, lowest, pairWord, BitVec.getLsbD_append, BitVec.getLsbD_extractLsb']; simp)

/-! ### The count and kind of a register list, the Should-Be-Zero field of FMXR and FMRX -/

@[simp] theorem listCount_append (n : BitVec 7) (b : BitVec 1) : (n ++ b).extractLsb' 1 7 = n := by
  revert n b; decide

@[simp] theorem listKind_append (n : BitVec 7) (b : BitVec 1) : (n ++ b).getLsbD 0 = b.getLsbD 0 := by
  revert n b; decide

@[simp] theorem sbz7_split (x : BitVec 7) : x.extractLsb' 6 1 ++ x.extractLsb' 0 6 = x := by
  revert x; decide

/-! ### The formats, decoded -/

theorem decode_cdpWord (c : Cond) (pqrs : BitVec 4) (dbl : BitVec 1) (d n m : BitVec 5) :
    decode (cdpWord c pqrs dbl d n m) = decodeCdp c (cdpWord c pqrs dbl d n m) := by
  simp [decode, cdpWord_cp, cdpWord_class, cdpWord_cond, cdpWord_bit4]

theorem decode_transferWord (c : Cond) (opc : BitVec 3) (l dbl : BitVec 1) (n : BitVec 5) (rd : ArmReg) (sbz : BitVec 6) :
    decode (transferWord c opc l dbl n rd sbz) = decodeTransfer c (transferWord c opc l dbl n rd sbz) := by
  simp [decode, transferWord_cp, transferWord_class, transferWord_cond, transferWord_bit4]

theorem decode_pairWord (c : Cond) (l dbl : BitVec 1) (rn rd : ArmReg) (m : BitVec 5) :
    decode (pairWord c l dbl rn rd m) = decodePair c (pairWord c l dbl rn rd m) := by
  simp [decode, pairWord_cp, pairWord_class, pairWord_cond, pairWord_pairClass]

/-- A load or store word with P = 1, or with P = 0 and U = 1. -/
theorem decode_loadStoreWord (c : Cond) (p u w l dbl : BitVec 1) (rn : ArmReg) (d : BitVec 5) (off : BitVec 8)
    (h : p = 1#1 ∨ u = 1#1) :
    decode (loadStoreWord c p u w l dbl rn d off) = decodeLoadStore c (loadStoreWord c p u w l dbl rn d off) := by
  simp only [decode, loadStoreWord_cp, loadStoreWord_class, loadStoreWord_cond, loadStoreWord_notPair, condOf_code]
  have hp : u ++ lowest d ++ w ≠ 0b010#3 ∨ p = 1#1 := by
    rcases h with h | h
    · exact .inr h
    · refine .inl ?_
      subst h
      revert w
      generalize lowest d = x
      revert x
      decide
  have : ∀ q : BitVec 1, q = 0#1 ∨ q = 1#1 := by decide
  rcases this p with rfl | rfl
  · rcases hp with hp | hp
    · simp [hp]
    · exact absurd hp (by decide)
  · simp

end Sys2Proof
end

