-- ==== Sys2Proof/Laws/Flags.lean ====
section
/-! SUPPORT. The fields of FPSCR, FPEXC and CPSR under the operations of Machine/Flags.lean, bit by bit. -/

namespace Sys2Proof.Machine

theorem Cumulative.word_sbz (f : Cumulative) : f.word &&& Fpscr.sbzMask = 0#32 := by
  rcases f with ⟨a, b, c, d, e, g⟩
  revert a b c d e g
  decide

theorem BounceFlags.word_sbz (f : BounceFlags) : f.word &&& Fpexc.sbzMask = 0#32 := by
  rcases f with ⟨a, b, c, d⟩
  revert a b c d
  decide

theorem or_and_zero {u v m : Word} (hu : u &&& m = 0#32) (hv : v &&& m = 0#32) : (u ||| v) &&& m = 0#32 := by
  rw [show (u ||| v) &&& m = (u &&& m) ||| (v &&& m) from by ext i; simp [Bool.and_or_distrib_right]]
  simp [hu, hv]

theorem Fpscr.raise_sbz (w : Word) (f : Cumulative) (h : w &&& Fpscr.sbzMask = 0#32) :
    Fpscr.raise w f &&& Fpscr.sbzMask = 0#32 :=
  or_and_zero h f.word_sbz

/-- N, Z, C, V replaced: bit by bit. -/
theorem Fpscr.getLsbD_setNzcv (w : Word) (b : BitVec 4) (i : Nat) :
    (Fpscr.setNzcv w b).getLsbD i = if i < 28 then w.getLsbD i else b.getLsbD (i - 28) := by
  simp only [Fpscr.setNzcv, field, BitVec.getLsbD_append, BitVec.getLsbD_extractLsb']
  by_cases h : i < 28 <;> simp only [h, if_true, if_false, decide_true, Bool.true_and, Nat.zero_add]

theorem Cpsr.getLsbD_setNzcv (w : Word) (b : BitVec 4) (i : Nat) :
    (Cpsr.setNzcv w b).getLsbD i = if i < 28 then w.getLsbD i else b.getLsbD (i - 28) :=
  Fpscr.getLsbD_setNzcv w b i

theorem Fpscr.setNzcv_sbz (w : Word) (b : BitVec 4) (h : w &&& Fpscr.sbzMask = 0#32) :
    Fpscr.setNzcv w b &&& Fpscr.sbzMask = 0#32 := by
  apply BitVec.eq_of_getLsbD_eq
  intro i hi
  have h' := congrArg (fun v => BitVec.getLsbD v i) h
  simp only [BitVec.getLsbD_and, Fpscr.getLsbD_setNzcv] at h' ⊢
  by_cases h1 : i < 28
  · simpa only [h1, if_true] using h'
  · have : i = 28 ∨ i = 29 ∨ i = 30 ∨ i = 31 := by omega
    rcases this with rfl | rfl | rfl | rfl <;> simp [Fpscr.sbzMask]

/-- FPEXC after a bounce, bit by bit but for the cause flags. -/
theorem Fpexc.getLsbD_bounce (w : Word) (n : Nat) (f : BounceFlags) (i : Nat) (hi : i < 32) :
    (Fpexc.bounce w n f).getLsbD i =
      ((if i < 8 then w.getLsbD i else if i < 11 then (vecitrOf n).getLsbD (i - 8)
        else if i < 31 then w.getLsbD i else true) || f.word.getLsbD i) := by
  simp only [Fpexc.bounce, field, BitVec.getLsbD_or, BitVec.getLsbD_append, BitVec.getLsbD_extractLsb']
  congr 1
  by_cases h1 : i < 8
  · simp only [h1, if_true, decide_true, Bool.true_and, Nat.zero_add]
  · by_cases h2 : i < 11
    · have : i - 8 < 3 := by omega
      simp only [h1, h2, this, if_true, if_false]
    · have : ¬ i - 8 < 3 := by omega
      by_cases h3 : i < 31
      · have : i - 8 - 3 < 20 := by omega
        simp only [*, if_true, if_false, decide_true, Bool.true_and, show 11 + (i - 8 - 3) = i by omega]
      · have : i = 31 := by omega
        subst this
        simp

theorem Fpexc.bounce_ex (w : Word) (n : Nat) (f : BounceFlags) : Fpexc.ex (Fpexc.bounce w n f) = true := by
  rw [Fpexc.ex, bitAt, Fpexc.getLsbD_bounce _ _ _ _ (by omega)]
  simp

theorem Fpexc.bounce_en (w : Word) (n : Nat) (f : BounceFlags) : Fpexc.en (Fpexc.bounce w n f) = Fpexc.en w := by
  have : f.word.getLsbD 30 = false := by
    rcases f with ⟨a, b, c, d⟩
    revert a b c d
    decide
  rw [Fpexc.en, bitAt, Fpexc.getLsbD_bounce _ _ _ _ (by omega), this]
  simp [Fpexc.en, bitAt]

theorem Fpexc.bounce_sbz (w : Word) (n : Nat) (f : BounceFlags) (h : w &&& Fpexc.sbzMask = 0#32) :
    Fpexc.bounce w n f &&& Fpexc.sbzMask = 0#32 := by
  apply BitVec.eq_of_getLsbD_eq
  intro i hi
  have h' := congrArg (fun v => BitVec.getLsbD v i) h
  have hf := congrArg (fun v => BitVec.getLsbD v i) f.word_sbz
  simp only [BitVec.getLsbD_and, Fpexc.getLsbD_bounce _ _ _ _ hi, BitVec.getLsbD_zero] at h' hf ⊢
  by_cases h1 : i < 8
  · simp only [h1, if_true, Bool.and_or_distrib_right, h', hf, Bool.or_self]
  · by_cases h2 : i < 11
    · have : i = 8 ∨ i = 9 ∨ i = 10 := by omega
      rcases this with rfl | rfl | rfl <;> simp [Fpexc.sbzMask]
    · by_cases h3 : i < 31
      · simp only [h1, h2, h3, if_true, if_false, Bool.and_or_distrib_right, h', hf, Bool.or_self]
      · have : i = 31 := by omega
        subst this
        simp [Fpexc.sbzMask]

theorem Fpexc.clearState_sbz (w : Word) (h : w &&& Fpexc.sbzMask = 0#32) :
    Fpexc.clearState w &&& Fpexc.sbzMask = 0#32 := by
  unfold Fpexc.clearState
  rw [BitVec.and_assoc, BitVec.and_comm 0x6FFFFF72#32, ← BitVec.and_assoc, h]
  simp

theorem Fpexc.clearState_ex (w : Word) : Fpexc.ex (Fpexc.clearState w) = false := by
  simp [Fpexc.ex, Fpexc.clearState, bitAt]

theorem Fpexc.clearState_en (w : Word) : Fpexc.en (Fpexc.clearState w) = Fpexc.en w := by
  simp [Fpexc.en, Fpexc.clearState, bitAt]

theorem Fpexc.setFp2v_sbz (w : Word) (h : w &&& Fpexc.sbzMask = 0#32) : Fpexc.setFp2v w &&& Fpexc.sbzMask = 0#32 :=
  or_and_zero h (by decide)

theorem Cpsr.mode_enterUndefined (w : Word) : Cpsr.mode (Cpsr.enterUndefined w) = Mode.undefined := by
  apply BitVec.eq_of_getLsbD_eq
  intro i hi
  simp only [Cpsr.mode, Cpsr.enterUndefined, field, BitVec.getLsbD_extractLsb', BitVec.getLsbD_append, Nat.zero_add, hi,
    if_true, decide_true, Bool.true_and]

theorem Cpsr.mode_setNzcv (w : Word) (b : BitVec 4) : Cpsr.mode (Cpsr.setNzcv w b) = Cpsr.mode w := by
  apply BitVec.eq_of_getLsbD_eq
  intro i hi
  have : i < 28 := by omega
  simp only [Cpsr.mode, field, BitVec.getLsbD_extractLsb', Cpsr.getLsbD_setNzcv, Nat.zero_add, this, if_true]

/-- The number of iterations VECITR stands for is the one it was written from. -/
theorem remaining_vecitrOf (n : Nat) (h : n ≤ 7) : ((vecitrOf n).toNat + 1) % 8 = n := by
  simp only [vecitrOf, BitVec.toNat_ofNat]
  omega

end Sys2Proof.Machine
end

