-- ==== Sys2Proof/Laws/Updates.lean ====
section
/-! SUPPORT. What the composed updates leave alone: one lemma per field, from the lemmas of Laws/State.lean. -/

namespace Sys2Proof.Machine

set_option Elab.async false

variable (s : State)

/-! ### writeReg, complete -/

@[simp] theorem State.writeReg_fpscr (p : Prec) (r : BitVec 5) (v : BitVec 64) : (s.writeReg p r v).fpscr = s.fpscr := by
  cases p <;> rfl
@[simp] theorem State.writeReg_fpexc (p : Prec) (r : BitVec 5) (v : BitVec 64) : (s.writeReg p r v).fpexc = s.fpexc := by
  cases p <;> rfl
@[simp] theorem State.writeReg_fpinst (p : Prec) (r : BitVec 5) (v : BitVec 64) : (s.writeReg p r v).fpinst = s.fpinst := by
  cases p <;> rfl
@[simp] theorem State.writeReg_fpinst2 (p : Prec) (r : BitVec 5) (v : BitVec 64) : (s.writeReg p r v).fpinst2 = s.fpinst2 := by
  cases p <;> rfl
@[simp] theorem State.writeReg_fpinst2Defined (p : Prec) (r : BitVec 5) (v : BitVec 64) : (s.writeReg p r v).fpinst2Defined = s.fpinst2Defined := by
  cases p <;> rfl
@[simp] theorem State.writeReg_win (p : Prec) (r : BitVec 5) (v : BitVec 64) : (s.writeReg p r v).win = s.win := by
  cases p <;> rfl
@[simp] theorem State.writeReg_arm (p : Prec) (r : BitVec 5) (v : BitVec 64) : (s.writeReg p r v).arm = s.arm := by
  cases p <;> rfl
@[simp] theorem State.writeReg_pc (p : Prec) (r : BitVec 5) (v : BitVec 64) : (s.writeReg p r v).pc = s.pc := by
  cases p <;> rfl
@[simp] theorem State.writeReg_cpsr (p : Prec) (r : BitVec 5) (v : BitVec 64) : (s.writeReg p r v).cpsr = s.cpsr := by
  cases p <;> rfl
@[simp] theorem State.writeReg_r14Und (p : Prec) (r : BitVec 5) (v : BitVec 64) : (s.writeReg p r v).r14Und = s.r14Und := by
  cases p <;> rfl
@[simp] theorem State.writeReg_spsrUnd (p : Prec) (r : BitVec 5) (v : BitVec 64) : (s.writeReg p r v).spsrUnd = s.spsrUnd := by
  cases p <;> rfl
@[simp] theorem State.writeReg_bigEndian (p : Prec) (r : BitVec 5) (v : BitVec 64) : (s.writeReg p r v).bigEndian = s.bigEndian := by
  cases p <;> rfl
@[simp] theorem State.writeReg_highVectors (p : Prec) (r : BitVec 5) (v : BitVec 64) : (s.writeReg p r v).highVectors = s.highVectors := by
  cases p <;> rfl
@[simp] theorem State.writeReg_cpAccess (p : Prec) (r : BitVec 5) (v : BitVec 64) : (s.writeReg p r v).cpAccess = s.cpAccess := by
  cases p <;> rfl
@[simp] theorem State.writeReg_mem (p : Prec) (r : BitVec 5) (v : BitVec 64) : (s.writeReg p r v).mem = s.mem := by
  cases p <;> rfl
@[simp] theorem State.writeReg_aborts (p : Prec) (r : BitVec 5) (v : BitVec 64) : (s.writeReg p r v).aborts = s.aborts := by
  cases p <;> rfl
@[simp] theorem State.writeReg_fetched (p : Prec) (r : BitVec 5) (v : BitVec 64) : (s.writeReg p r v).fetched = s.fetched := by
  cases p <;> rfl
@[simp] theorem State.writeReg_stored (p : Prec) (r : BitVec 5) (v : BitVec 64) : (s.writeReg p r v).stored = s.stored := by
  cases p <;> rfl
@[simp] theorem State.writeReg_level (p : Prec) (r : BitVec 5) (v : BitVec 64) : (s.writeReg p r v).level = s.level := by
  cases p <;> rfl
@[simp] theorem State.writeReg_draws (p : Prec) (r : BitVec 5) (v : BitVec 64) : (s.writeReg p r v).draws = s.draws := by
  cases p <;> rfl
@[simp] theorem State.complete_fpexc (c : Cdp) (e : Effect) (fl : Cumulative) : (s.complete c e fl).fpexc = s.fpexc := by
  cases e <;> simp [State.complete]
@[simp] theorem State.complete_fpinst (c : Cdp) (e : Effect) (fl : Cumulative) : (s.complete c e fl).fpinst = s.fpinst := by
  cases e <;> simp [State.complete]
@[simp] theorem State.complete_fpinst2 (c : Cdp) (e : Effect) (fl : Cumulative) : (s.complete c e fl).fpinst2 = s.fpinst2 := by
  cases e <;> simp [State.complete]
@[simp] theorem State.complete_fpinst2Defined (c : Cdp) (e : Effect) (fl : Cumulative) : (s.complete c e fl).fpinst2Defined = s.fpinst2Defined := by
  cases e <;> simp [State.complete]
@[simp] theorem State.complete_win (c : Cdp) (e : Effect) (fl : Cumulative) : (s.complete c e fl).win = s.win := by
  cases e <;> simp [State.complete]
@[simp] theorem State.complete_arm (c : Cdp) (e : Effect) (fl : Cumulative) : (s.complete c e fl).arm = s.arm := by
  cases e <;> simp [State.complete]
@[simp] theorem State.complete_pc (c : Cdp) (e : Effect) (fl : Cumulative) : (s.complete c e fl).pc = s.pc := by
  cases e <;> simp [State.complete]
@[simp] theorem State.complete_cpsr (c : Cdp) (e : Effect) (fl : Cumulative) : (s.complete c e fl).cpsr = s.cpsr := by
  cases e <;> simp [State.complete]
@[simp] theorem State.complete_r14Und (c : Cdp) (e : Effect) (fl : Cumulative) : (s.complete c e fl).r14Und = s.r14Und := by
  cases e <;> simp [State.complete]
@[simp] theorem State.complete_spsrUnd (c : Cdp) (e : Effect) (fl : Cumulative) : (s.complete c e fl).spsrUnd = s.spsrUnd := by
  cases e <;> simp [State.complete]
@[simp] theorem State.complete_bigEndian (c : Cdp) (e : Effect) (fl : Cumulative) : (s.complete c e fl).bigEndian = s.bigEndian := by
  cases e <;> simp [State.complete]
@[simp] theorem State.complete_highVectors (c : Cdp) (e : Effect) (fl : Cumulative) : (s.complete c e fl).highVectors = s.highVectors := by
  cases e <;> simp [State.complete]
@[simp] theorem State.complete_cpAccess (c : Cdp) (e : Effect) (fl : Cumulative) : (s.complete c e fl).cpAccess = s.cpAccess := by
  cases e <;> simp [State.complete]
@[simp] theorem State.complete_mem (c : Cdp) (e : Effect) (fl : Cumulative) : (s.complete c e fl).mem = s.mem := by
  cases e <;> simp [State.complete]
@[simp] theorem State.complete_aborts (c : Cdp) (e : Effect) (fl : Cumulative) : (s.complete c e fl).aborts = s.aborts := by
  cases e <;> simp [State.complete]
@[simp] theorem State.complete_fetched (c : Cdp) (e : Effect) (fl : Cumulative) : (s.complete c e fl).fetched = s.fetched := by
  cases e <;> simp [State.complete]
@[simp] theorem State.complete_stored (c : Cdp) (e : Effect) (fl : Cumulative) : (s.complete c e fl).stored = s.stored := by
  cases e <;> simp [State.complete]
@[simp] theorem State.complete_level (c : Cdp) (e : Effect) (fl : Cumulative) : (s.complete c e fl).level = s.level := by
  cases e <;> simp [State.complete]
@[simp] theorem State.complete_draws (c : Cdp) (e : Effect) (fl : Cumulative) : (s.complete c e fl).draws = s.draws := by
  cases e <;> simp [State.complete]

/-! ### loadWords, storeWords, writeBase -/

@[simp] theorem State.loadWords_fpscr (ws : List (BitVec 5 × Nat)) : (s.loadWords ws).fpscr = s.fpscr := by
  induction ws generalizing s with
  | nil => rfl
  | cons w rest ih => simp [State.loadWords, ih]
@[simp] theorem State.loadWords_fpexc (ws : List (BitVec 5 × Nat)) : (s.loadWords ws).fpexc = s.fpexc := by
  induction ws generalizing s with
  | nil => rfl
  | cons w rest ih => simp [State.loadWords, ih]
@[simp] theorem State.loadWords_fpinst (ws : List (BitVec 5 × Nat)) : (s.loadWords ws).fpinst = s.fpinst := by
  induction ws generalizing s with
  | nil => rfl
  | cons w rest ih => simp [State.loadWords, ih]
@[simp] theorem State.loadWords_fpinst2 (ws : List (BitVec 5 × Nat)) : (s.loadWords ws).fpinst2 = s.fpinst2 := by
  induction ws generalizing s with
  | nil => rfl
  | cons w rest ih => simp [State.loadWords, ih]
@[simp] theorem State.loadWords_fpinst2Defined (ws : List (BitVec 5 × Nat)) : (s.loadWords ws).fpinst2Defined = s.fpinst2Defined := by
  induction ws generalizing s with
  | nil => rfl
  | cons w rest ih => simp [State.loadWords, ih]
@[simp] theorem State.loadWords_win (ws : List (BitVec 5 × Nat)) : (s.loadWords ws).win = s.win := by
  induction ws generalizing s with
  | nil => rfl
  | cons w rest ih => simp [State.loadWords, ih]
@[simp] theorem State.loadWords_arm (ws : List (BitVec 5 × Nat)) : (s.loadWords ws).arm = s.arm := by
  induction ws generalizing s with
  | nil => rfl
  | cons w rest ih => simp [State.loadWords, ih]
@[simp] theorem State.loadWords_pc (ws : List (BitVec 5 × Nat)) : (s.loadWords ws).pc = s.pc := by
  induction ws generalizing s with
  | nil => rfl
  | cons w rest ih => simp [State.loadWords, ih]
@[simp] theorem State.loadWords_cpsr (ws : List (BitVec 5 × Nat)) : (s.loadWords ws).cpsr = s.cpsr := by
  induction ws generalizing s with
  | nil => rfl
  | cons w rest ih => simp [State.loadWords, ih]
@[simp] theorem State.loadWords_r14Und (ws : List (BitVec 5 × Nat)) : (s.loadWords ws).r14Und = s.r14Und := by
  induction ws generalizing s with
  | nil => rfl
  | cons w rest ih => simp [State.loadWords, ih]
@[simp] theorem State.loadWords_spsrUnd (ws : List (BitVec 5 × Nat)) : (s.loadWords ws).spsrUnd = s.spsrUnd := by
  induction ws generalizing s with
  | nil => rfl
  | cons w rest ih => simp [State.loadWords, ih]
@[simp] theorem State.loadWords_bigEndian (ws : List (BitVec 5 × Nat)) : (s.loadWords ws).bigEndian = s.bigEndian := by
  induction ws generalizing s with
  | nil => rfl
  | cons w rest ih => simp [State.loadWords, ih]
@[simp] theorem State.loadWords_highVectors (ws : List (BitVec 5 × Nat)) : (s.loadWords ws).highVectors = s.highVectors := by
  induction ws generalizing s with
  | nil => rfl
  | cons w rest ih => simp [State.loadWords, ih]
@[simp] theorem State.loadWords_cpAccess (ws : List (BitVec 5 × Nat)) : (s.loadWords ws).cpAccess = s.cpAccess := by
  induction ws generalizing s with
  | nil => rfl
  | cons w rest ih => simp [State.loadWords, ih]
@[simp] theorem State.loadWords_mem (ws : List (BitVec 5 × Nat)) : (s.loadWords ws).mem = s.mem := by
  induction ws generalizing s with
  | nil => rfl
  | cons w rest ih => simp [State.loadWords, ih]
@[simp] theorem State.loadWords_aborts (ws : List (BitVec 5 × Nat)) : (s.loadWords ws).aborts = s.aborts := by
  induction ws generalizing s with
  | nil => rfl
  | cons w rest ih => simp [State.loadWords, ih]
@[simp] theorem State.loadWords_fetched (ws : List (BitVec 5 × Nat)) : (s.loadWords ws).fetched = s.fetched := by
  induction ws generalizing s with
  | nil => rfl
  | cons w rest ih => simp [State.loadWords, ih]
@[simp] theorem State.loadWords_stored (ws : List (BitVec 5 × Nat)) : (s.loadWords ws).stored = s.stored := by
  induction ws generalizing s with
  | nil => rfl
  | cons w rest ih => simp [State.loadWords, ih]
@[simp] theorem State.loadWords_level (ws : List (BitVec 5 × Nat)) : (s.loadWords ws).level = s.level := by
  induction ws generalizing s with
  | nil => rfl
  | cons w rest ih => simp [State.loadWords, ih]
@[simp] theorem State.loadWords_draws (ws : List (BitVec 5 × Nat)) : (s.loadWords ws).draws = s.draws := by
  induction ws generalizing s with
  | nil => rfl
  | cons w rest ih => simp [State.loadWords, ih]
@[simp] theorem State.storeWords_sreg (ws : List (BitVec 5 × Nat)) : (s.storeWords ws).sreg = s.sreg := by
  induction ws generalizing s with
  | nil => rfl
  | cons w rest ih => simp [State.storeWords, ih]
@[simp] theorem State.storeWords_written (ws : List (BitVec 5 × Nat)) : (s.storeWords ws).written = s.written := by
  induction ws generalizing s with
  | nil => rfl
  | cons w rest ih => simp [State.storeWords, ih]
@[simp] theorem State.storeWords_fpscr (ws : List (BitVec 5 × Nat)) : (s.storeWords ws).fpscr = s.fpscr := by
  induction ws generalizing s with
  | nil => rfl
  | cons w rest ih => simp [State.storeWords, ih]
@[simp] theorem State.storeWords_fpexc (ws : List (BitVec 5 × Nat)) : (s.storeWords ws).fpexc = s.fpexc := by
  induction ws generalizing s with
  | nil => rfl
  | cons w rest ih => simp [State.storeWords, ih]
@[simp] theorem State.storeWords_fpinst (ws : List (BitVec 5 × Nat)) : (s.storeWords ws).fpinst = s.fpinst := by
  induction ws generalizing s with
  | nil => rfl
  | cons w rest ih => simp [State.storeWords, ih]
@[simp] theorem State.storeWords_fpinst2 (ws : List (BitVec 5 × Nat)) : (s.storeWords ws).fpinst2 = s.fpinst2 := by
  induction ws generalizing s with
  | nil => rfl
  | cons w rest ih => simp [State.storeWords, ih]
@[simp] theorem State.storeWords_fpinst2Defined (ws : List (BitVec 5 × Nat)) : (s.storeWords ws).fpinst2Defined = s.fpinst2Defined := by
  induction ws generalizing s with
  | nil => rfl
  | cons w rest ih => simp [State.storeWords, ih]
@[simp] theorem State.storeWords_win (ws : List (BitVec 5 × Nat)) : (s.storeWords ws).win = s.win := by
  induction ws generalizing s with
  | nil => rfl
  | cons w rest ih => simp [State.storeWords, ih]
@[simp] theorem State.storeWords_arm (ws : List (BitVec 5 × Nat)) : (s.storeWords ws).arm = s.arm := by
  induction ws generalizing s with
  | nil => rfl
  | cons w rest ih => simp [State.storeWords, ih]
@[simp] theorem State.storeWords_pc (ws : List (BitVec 5 × Nat)) : (s.storeWords ws).pc = s.pc := by
  induction ws generalizing s with
  | nil => rfl
  | cons w rest ih => simp [State.storeWords, ih]
@[simp] theorem State.storeWords_cpsr (ws : List (BitVec 5 × Nat)) : (s.storeWords ws).cpsr = s.cpsr := by
  induction ws generalizing s with
  | nil => rfl
  | cons w rest ih => simp [State.storeWords, ih]
@[simp] theorem State.storeWords_r14Und (ws : List (BitVec 5 × Nat)) : (s.storeWords ws).r14Und = s.r14Und := by
  induction ws generalizing s with
  | nil => rfl
  | cons w rest ih => simp [State.storeWords, ih]
@[simp] theorem State.storeWords_spsrUnd (ws : List (BitVec 5 × Nat)) : (s.storeWords ws).spsrUnd = s.spsrUnd := by
  induction ws generalizing s with
  | nil => rfl
  | cons w rest ih => simp [State.storeWords, ih]
@[simp] theorem State.storeWords_bigEndian (ws : List (BitVec 5 × Nat)) : (s.storeWords ws).bigEndian = s.bigEndian := by
  induction ws generalizing s with
  | nil => rfl
  | cons w rest ih => simp [State.storeWords, ih]
@[simp] theorem State.storeWords_highVectors (ws : List (BitVec 5 × Nat)) : (s.storeWords ws).highVectors = s.highVectors := by
  induction ws generalizing s with
  | nil => rfl
  | cons w rest ih => simp [State.storeWords, ih]
@[simp] theorem State.storeWords_cpAccess (ws : List (BitVec 5 × Nat)) : (s.storeWords ws).cpAccess = s.cpAccess := by
  induction ws generalizing s with
  | nil => rfl
  | cons w rest ih => simp [State.storeWords, ih]
@[simp] theorem State.storeWords_aborts (ws : List (BitVec 5 × Nat)) : (s.storeWords ws).aborts = s.aborts := by
  induction ws generalizing s with
  | nil => rfl
  | cons w rest ih => simp [State.storeWords, ih]
@[simp] theorem State.storeWords_fetched (ws : List (BitVec 5 × Nat)) : (s.storeWords ws).fetched = s.fetched := by
  induction ws generalizing s with
  | nil => rfl
  | cons w rest ih => simp [State.storeWords, ih]
@[simp] theorem State.storeWords_level (ws : List (BitVec 5 × Nat)) : (s.storeWords ws).level = s.level := by
  induction ws generalizing s with
  | nil => rfl
  | cons w rest ih => simp [State.storeWords, ih]
@[simp] theorem State.storeWords_draws (ws : List (BitVec 5 × Nat)) : (s.storeWords ws).draws = s.draws := by
  induction ws generalizing s with
  | nil => rfl
  | cons w rest ih => simp [State.storeWords, ih]
@[simp] theorem State.writeBase_sreg (rn : ArmReg) (wb : Option Word) : (s.writeBase rn wb).sreg = s.sreg := by
  cases wb <;> simp [State.writeBase]
@[simp] theorem State.writeBase_written (rn : ArmReg) (wb : Option Word) : (s.writeBase rn wb).written = s.written := by
  cases wb <;> simp [State.writeBase]
@[simp] theorem State.writeBase_fpscr (rn : ArmReg) (wb : Option Word) : (s.writeBase rn wb).fpscr = s.fpscr := by
  cases wb <;> simp [State.writeBase]
@[simp] theorem State.writeBase_fpexc (rn : ArmReg) (wb : Option Word) : (s.writeBase rn wb).fpexc = s.fpexc := by
  cases wb <;> simp [State.writeBase]
@[simp] theorem State.writeBase_fpinst (rn : ArmReg) (wb : Option Word) : (s.writeBase rn wb).fpinst = s.fpinst := by
  cases wb <;> simp [State.writeBase]
@[simp] theorem State.writeBase_fpinst2 (rn : ArmReg) (wb : Option Word) : (s.writeBase rn wb).fpinst2 = s.fpinst2 := by
  cases wb <;> simp [State.writeBase]
@[simp] theorem State.writeBase_fpinst2Defined (rn : ArmReg) (wb : Option Word) : (s.writeBase rn wb).fpinst2Defined = s.fpinst2Defined := by
  cases wb <;> simp [State.writeBase]
@[simp] theorem State.writeBase_win (rn : ArmReg) (wb : Option Word) : (s.writeBase rn wb).win = s.win := by
  cases wb <;> simp [State.writeBase]
@[simp] theorem State.writeBase_pc (rn : ArmReg) (wb : Option Word) : (s.writeBase rn wb).pc = s.pc := by
  cases wb <;> simp [State.writeBase]
@[simp] theorem State.writeBase_cpsr (rn : ArmReg) (wb : Option Word) : (s.writeBase rn wb).cpsr = s.cpsr := by
  cases wb <;> simp [State.writeBase]
@[simp] theorem State.writeBase_r14Und (rn : ArmReg) (wb : Option Word) : (s.writeBase rn wb).r14Und = s.r14Und := by
  cases wb <;> simp [State.writeBase]
@[simp] theorem State.writeBase_spsrUnd (rn : ArmReg) (wb : Option Word) : (s.writeBase rn wb).spsrUnd = s.spsrUnd := by
  cases wb <;> simp [State.writeBase]
@[simp] theorem State.writeBase_bigEndian (rn : ArmReg) (wb : Option Word) : (s.writeBase rn wb).bigEndian = s.bigEndian := by
  cases wb <;> simp [State.writeBase]
@[simp] theorem State.writeBase_highVectors (rn : ArmReg) (wb : Option Word) : (s.writeBase rn wb).highVectors = s.highVectors := by
  cases wb <;> simp [State.writeBase]
@[simp] theorem State.writeBase_cpAccess (rn : ArmReg) (wb : Option Word) : (s.writeBase rn wb).cpAccess = s.cpAccess := by
  cases wb <;> simp [State.writeBase]
@[simp] theorem State.writeBase_mem (rn : ArmReg) (wb : Option Word) : (s.writeBase rn wb).mem = s.mem := by
  cases wb <;> simp [State.writeBase]
@[simp] theorem State.writeBase_aborts (rn : ArmReg) (wb : Option Word) : (s.writeBase rn wb).aborts = s.aborts := by
  cases wb <;> simp [State.writeBase]
@[simp] theorem State.writeBase_fetched (rn : ArmReg) (wb : Option Word) : (s.writeBase rn wb).fetched = s.fetched := by
  cases wb <;> simp [State.writeBase]
@[simp] theorem State.writeBase_stored (rn : ArmReg) (wb : Option Word) : (s.writeBase rn wb).stored = s.stored := by
  cases wb <;> simp [State.writeBase]
@[simp] theorem State.writeBase_level (rn : ArmReg) (wb : Option Word) : (s.writeBase rn wb).level = s.level := by
  cases wb <;> simp [State.writeBase]
@[simp] theorem State.writeBase_draws (rn : ArmReg) (wb : Option Word) : (s.writeBase rn wb).draws = s.draws := by
  cases wb <;> simp [State.writeBase]

/-! ### decideBounce, bounce, capture -/

@[simp] theorem State.decideBounce_sreg (c : Check) : (s.decideBounce c).2.sreg = s.sreg := by
  simp only [State.decideBounce]; split <;> simp
@[simp] theorem State.decideBounce_written (c : Check) : (s.decideBounce c).2.written = s.written := by
  simp only [State.decideBounce]; split <;> simp
@[simp] theorem State.decideBounce_fpscr (c : Check) : (s.decideBounce c).2.fpscr = s.fpscr := by
  simp only [State.decideBounce]; split <;> simp
@[simp] theorem State.decideBounce_fpexc (c : Check) : (s.decideBounce c).2.fpexc = s.fpexc := by
  simp only [State.decideBounce]; split <;> simp
@[simp] theorem State.decideBounce_fpinst (c : Check) : (s.decideBounce c).2.fpinst = s.fpinst := by
  simp only [State.decideBounce]; split <;> simp
@[simp] theorem State.decideBounce_fpinst2 (c : Check) : (s.decideBounce c).2.fpinst2 = s.fpinst2 := by
  simp only [State.decideBounce]; split <;> simp
@[simp] theorem State.decideBounce_fpinst2Defined (c : Check) : (s.decideBounce c).2.fpinst2Defined = s.fpinst2Defined := by
  simp only [State.decideBounce]; split <;> simp
@[simp] theorem State.decideBounce_win (c : Check) : (s.decideBounce c).2.win = s.win := by
  simp only [State.decideBounce]; split <;> simp
@[simp] theorem State.decideBounce_arm (c : Check) : (s.decideBounce c).2.arm = s.arm := by
  simp only [State.decideBounce]; split <;> simp
@[simp] theorem State.decideBounce_pc (c : Check) : (s.decideBounce c).2.pc = s.pc := by
  simp only [State.decideBounce]; split <;> simp
@[simp] theorem State.decideBounce_cpsr (c : Check) : (s.decideBounce c).2.cpsr = s.cpsr := by
  simp only [State.decideBounce]; split <;> simp
@[simp] theorem State.decideBounce_r14Und (c : Check) : (s.decideBounce c).2.r14Und = s.r14Und := by
  simp only [State.decideBounce]; split <;> simp
@[simp] theorem State.decideBounce_spsrUnd (c : Check) : (s.decideBounce c).2.spsrUnd = s.spsrUnd := by
  simp only [State.decideBounce]; split <;> simp
@[simp] theorem State.decideBounce_bigEndian (c : Check) : (s.decideBounce c).2.bigEndian = s.bigEndian := by
  simp only [State.decideBounce]; split <;> simp
@[simp] theorem State.decideBounce_highVectors (c : Check) : (s.decideBounce c).2.highVectors = s.highVectors := by
  simp only [State.decideBounce]; split <;> simp
@[simp] theorem State.decideBounce_cpAccess (c : Check) : (s.decideBounce c).2.cpAccess = s.cpAccess := by
  simp only [State.decideBounce]; split <;> simp
@[simp] theorem State.decideBounce_mem (c : Check) : (s.decideBounce c).2.mem = s.mem := by
  simp only [State.decideBounce]; split <;> simp
@[simp] theorem State.decideBounce_aborts (c : Check) : (s.decideBounce c).2.aborts = s.aborts := by
  simp only [State.decideBounce]; split <;> simp
@[simp] theorem State.decideBounce_fetched (c : Check) : (s.decideBounce c).2.fetched = s.fetched := by
  simp only [State.decideBounce]; split <;> simp
@[simp] theorem State.decideBounce_stored (c : Check) : (s.decideBounce c).2.stored = s.stored := by
  simp only [State.decideBounce]; split <;> simp
@[simp] theorem State.decideBounce_level (c : Check) : (s.decideBounce c).2.level = s.level := by
  simp only [State.decideBounce]; split <;> simp
@[simp] theorem State.bounce_sreg (word : Word) (c : Cdp) (sh : Shape) (w : Word) (k : Nat) (b : Bool) (fl : BounceFlags) :
    (s.bounce word c sh w k b fl).sreg = s.sreg := by
  simp [State.bounce]
@[simp] theorem State.bounce_written (word : Word) (c : Cdp) (sh : Shape) (w : Word) (k : Nat) (b : Bool) (fl : BounceFlags) :
    (s.bounce word c sh w k b fl).written = s.written := by
  simp [State.bounce]
@[simp] theorem State.bounce_fpinst2 (word : Word) (c : Cdp) (sh : Shape) (w : Word) (k : Nat) (b : Bool) (fl : BounceFlags) :
    (s.bounce word c sh w k b fl).fpinst2 = s.fpinst2 := by
  simp [State.bounce]
@[simp] theorem State.bounce_arm (word : Word) (c : Cdp) (sh : Shape) (w : Word) (k : Nat) (b : Bool) (fl : BounceFlags) :
    (s.bounce word c sh w k b fl).arm = s.arm := by
  simp [State.bounce]
@[simp] theorem State.bounce_pc (word : Word) (c : Cdp) (sh : Shape) (w : Word) (k : Nat) (b : Bool) (fl : BounceFlags) :
    (s.bounce word c sh w k b fl).pc = s.pc := by
  simp [State.bounce]
@[simp] theorem State.bounce_cpsr (word : Word) (c : Cdp) (sh : Shape) (w : Word) (k : Nat) (b : Bool) (fl : BounceFlags) :
    (s.bounce word c sh w k b fl).cpsr = s.cpsr := by
  simp [State.bounce]
@[simp] theorem State.bounce_r14Und (word : Word) (c : Cdp) (sh : Shape) (w : Word) (k : Nat) (b : Bool) (fl : BounceFlags) :
    (s.bounce word c sh w k b fl).r14Und = s.r14Und := by
  simp [State.bounce]
@[simp] theorem State.bounce_spsrUnd (word : Word) (c : Cdp) (sh : Shape) (w : Word) (k : Nat) (b : Bool) (fl : BounceFlags) :
    (s.bounce word c sh w k b fl).spsrUnd = s.spsrUnd := by
  simp [State.bounce]
@[simp] theorem State.bounce_bigEndian (word : Word) (c : Cdp) (sh : Shape) (w : Word) (k : Nat) (b : Bool) (fl : BounceFlags) :
    (s.bounce word c sh w k b fl).bigEndian = s.bigEndian := by
  simp [State.bounce]
@[simp] theorem State.bounce_highVectors (word : Word) (c : Cdp) (sh : Shape) (w : Word) (k : Nat) (b : Bool) (fl : BounceFlags) :
    (s.bounce word c sh w k b fl).highVectors = s.highVectors := by
  simp [State.bounce]
@[simp] theorem State.bounce_cpAccess (word : Word) (c : Cdp) (sh : Shape) (w : Word) (k : Nat) (b : Bool) (fl : BounceFlags) :
    (s.bounce word c sh w k b fl).cpAccess = s.cpAccess := by
  simp [State.bounce]
@[simp] theorem State.bounce_mem (word : Word) (c : Cdp) (sh : Shape) (w : Word) (k : Nat) (b : Bool) (fl : BounceFlags) :
    (s.bounce word c sh w k b fl).mem = s.mem := by
  simp [State.bounce]
@[simp] theorem State.bounce_aborts (word : Word) (c : Cdp) (sh : Shape) (w : Word) (k : Nat) (b : Bool) (fl : BounceFlags) :
    (s.bounce word c sh w k b fl).aborts = s.aborts := by
  simp [State.bounce]
@[simp] theorem State.bounce_fetched (word : Word) (c : Cdp) (sh : Shape) (w : Word) (k : Nat) (b : Bool) (fl : BounceFlags) :
    (s.bounce word c sh w k b fl).fetched = s.fetched := by
  simp [State.bounce]
@[simp] theorem State.bounce_stored (word : Word) (c : Cdp) (sh : Shape) (w : Word) (k : Nat) (b : Bool) (fl : BounceFlags) :
    (s.bounce word c sh w k b fl).stored = s.stored := by
  simp [State.bounce]
@[simp] theorem State.bounce_level (word : Word) (c : Cdp) (sh : Shape) (w : Word) (k : Nat) (b : Bool) (fl : BounceFlags) :
    (s.bounce word c sh w k b fl).level = s.level := by
  simp [State.bounce]
@[simp] theorem State.capture_sreg (word : Word) : (s.capture word).sreg = s.sreg := rfl
@[simp] theorem State.capture_written (word : Word) : (s.capture word).written = s.written := rfl
@[simp] theorem State.capture_fpscr (word : Word) : (s.capture word).fpscr = s.fpscr := rfl
@[simp] theorem State.capture_fpinst (word : Word) : (s.capture word).fpinst = s.fpinst := rfl
@[simp] theorem State.capture_arm (word : Word) : (s.capture word).arm = s.arm := rfl
@[simp] theorem State.capture_cpsr (word : Word) : (s.capture word).cpsr = s.cpsr := rfl
@[simp] theorem State.capture_r14Und (word : Word) : (s.capture word).r14Und = s.r14Und := rfl
@[simp] theorem State.capture_spsrUnd (word : Word) : (s.capture word).spsrUnd = s.spsrUnd := rfl
@[simp] theorem State.capture_bigEndian (word : Word) : (s.capture word).bigEndian = s.bigEndian := rfl
@[simp] theorem State.capture_highVectors (word : Word) : (s.capture word).highVectors = s.highVectors := rfl
@[simp] theorem State.capture_cpAccess (word : Word) : (s.capture word).cpAccess = s.cpAccess := rfl
@[simp] theorem State.capture_mem (word : Word) : (s.capture word).mem = s.mem := rfl
@[simp] theorem State.capture_aborts (word : Word) : (s.capture word).aborts = s.aborts := rfl
@[simp] theorem State.capture_fetched (word : Word) : (s.capture word).fetched = s.fetched := rfl
@[simp] theorem State.capture_stored (word : Word) : (s.capture word).stored = s.stored := rfl
@[simp] theorem State.capture_level (word : Word) : (s.capture word).level = s.level := rfl
@[simp] theorem State.capture_draws (word : Word) : (s.capture word).draws = s.draws := rfl

end Sys2Proof.Machine
end

