-- ==== Sys2Proof/Laws/Keeps.lean ====
section
/-! SUPPORT. The induction over everything an instruction can do, packaged once: a property that every primitive
update keeps is kept by every instruction that answers a next state. -/

namespace Sys2Proof.Machine

/-- The property is kept by every primitive update the instruction `i` makes. -/
structure Keeps (i : Instr) (P : State → Prop) : Prop where
  advance : ∀ s, P s → P s.advance
  undefined : ∀ s, P s → P s.takeUndefined
  draw : ∀ s, P s → P s.draw.2
  drawWord : ∀ s, P s → P s.drawWord.2
  closeWin : ∀ s, P s → P s.closeWin
  support : ∀ s t, P s → s.supportCode = .next t → P t
  writeS : ∀ s r v, P s → P (s.writeS r v)
  writeArm : ∀ s n v, P s → P (s.writeArm n v)
  raise : ∀ s f, P s → P (s.raise f)
  nzcv : ∀ s b, P s → P (s.setFpscr (Fpscr.setNzcv s.fpscr b))
  cpsr : ∀ s b, P s → P (s.setCpsr (Cpsr.setNzcv s.cpsr b))
  writeWord : isStore i = true → ∀ s a w, P s → P (s.writeWord a w)
  writeSys : ∀ c r rd sbz, i = .fmxr c r rd sbz → ∀ s v t, s.accessible (.sys r) = true → s.win = .closed → P s →
    s.writeSys r v = some t → P t
  bounce : ∀ s word c sh w k inSub fl, P s → P (s.bounce word c sh w k inSub fl)
  capture : ∀ s word, s.win ≠ .closed → P s → P (s.capture word)

variable {i : Instr} {P : State → Prop}

theorem Keeps.drawIf (h : Keeps i P) (s : State) (b : Bool) (hp : P s) : P (s.drawIf b).2 := by
  unfold State.drawIf
  split
  · exact h.draw s hp
  · exact hp

theorem Keeps.writeReg (h : Keeps i P) (s : State) (p : Prec) (r : BitVec 5) (v : BitVec 64) (hp : P s) :
    P (s.writeReg p r v) := by
  cases p with
  | single => exact h.writeS _ _ _ hp
  | double => exact h.writeS _ _ _ (h.writeS _ _ _ hp)

theorem Keeps.complete (h : Keeps i P) (s : State) (c : Cdp) (e : Effect) (fl : Cumulative) (hp : P s) :
    P (s.complete c e fl) := by
  cases e with
  | reg v => exact h.raise _ _ (h.writeReg _ _ _ _ hp)
  | nzcv b => exact h.raise _ _ (h.nzcv _ _ hp)

theorem Keeps.decideBounce (h : Keeps i P) (s : State) (c : Check) (hp : P s) : P (s.decideBounce c).2 := by
  unfold State.decideBounce
  have h1 := h.drawIf s c.mayOver hp
  have h2 := h.drawIf _ c.mayUnder h1
  dsimp only
  split
  · exact h.drawIf _ _ h2
  · exact h2

theorem Keeps.runIterations (h : Keeps i P) (word : Word) (c : Cdp) (sh : Shape) (w : Word) (left : Nat) (s : State)
    (hp : P s) : P (s.runIterations word c sh w left) := by
  induction left generalizing s with
  | zero => exact hp
  | succ rest ih =>
    simp only [State.runIterations]
    have hd := h.decideBounce s (iterH c.op c.p w (s.source (c.at sh w (sh.iters - (rest + 1))))).1 hp
    split
    · exact h.bounce _ _ _ _ _ _ _ _ hd
    · exact ih _ (h.complete _ _ _ _ hd)

theorem Keeps.runCdp (h : Keeps i P) (word : Word) (c : Cdp) (s : State) (hp : P s) : P (s.runCdp word c) :=
  h.advance _ (h.runIterations _ _ _ _ _ _ hp)

theorem Keeps.trigger (h : Keeps i P) {go : State → Result} (hgo : ∀ u t, P u → go u = .next t → P t) (s t : State)
    (hp : P s) (ht : trigger go s = .next t) : P t := by
  rcases trigger_next ht with ⟨_, rfl⟩ | ⟨_, u, hu, hg⟩
  · exact h.undefined _ hp
  · exact hgo _ _ (h.support _ _ hp hu) hg

theorem Keeps.issueTransfer (h : Keeps i P) {writes reads : Word} {go : State → Result}
    (hgo : ∀ u t, P u → go u = .next t → P t) (s t : State) (hp : P s)
    (ht : issueTransfer writes reads go s = .next t) : P t := by
  rcases issueTransfer_next ht with ⟨_, hg⟩ | ⟨_, u, hu, hg⟩ | ⟨_, _, hg⟩
  · exact hgo _ _ hp hg
  · rcases hu with rfl | rfl
    · exact h.trigger hgo _ _ hp hg
    · exact h.trigger hgo _ _ (h.draw _ hp) hg
  · exact hgo _ _ (h.draw _ hp) hg

theorem Keeps.checked (h : Keeps i P) {a : Access} {go : State → Result}
    (s t : State) (hgo : s.accessible a = true → ∀ t, go s = .next t → P t) (hp : P s)
    (ht : checked i a go s = .next t) : P t := by
  rcases checked_next ht with ⟨_, rfl⟩ | ⟨_, _, rfl⟩ | ⟨_, ha, _, hg⟩
  · exact h.advance _ hp
  · exact h.undefined _ hp
  · exact hgo ha _ hg

theorem Keeps.execCdp (h : Keeps i P) (c : Cdp) (s t : State) (hp : P s) (ht : execCdp i c s = .next t) : P t := by
  refine h.checked s t (fun _ t ht => ?_) hp ht
  rcases issueCdp_next ht with ⟨_, _, rfl⟩ | ⟨_, u, hu, hg⟩ | ⟨_, hw, _, rfl⟩
  · exact h.runCdp _ _ _ hp
  · have hrun : ∀ u t : State, P u → startCdp (encode i) c u = .next t → P t := by
      intro u t hu ht
      obtain ⟨_, rfl⟩ := startCdp_next ht
      exact h.runCdp _ _ _ hu
    rcases hu with rfl | rfl
    · exact h.trigger hrun _ _ hp hg
    · exact h.trigger hrun _ _ (h.draw _ hp) hg
  · exact h.capture _ _ (by simpa using hw) (h.draw _ hp)

theorem Keeps.loadWords (h : Keeps i P) (ws : List (BitVec 5 × Nat)) (s : State) (hp : P s) : P (s.loadWords ws) := by
  induction ws generalizing s with
  | nil => exact hp
  | cons w rest ih => exact ih _ (h.writeS _ _ _ hp)

theorem Keeps.storeWords (h : Keeps i P) (hs : isStore i = true) (ws : List (BitVec 5 × Nat)) (s : State) (hp : P s) :
    P (s.storeWords ws) := by
  induction ws generalizing s with
  | nil => exact hp
  | cons w rest ih => exact ih _ (h.writeWord hs _ _ _ hp)

theorem Keeps.writeBase (h : Keeps i P) (s : State) (rn : ArmReg) (wb : Option Word) (hp : P s) :
    P (s.writeBase rn wb) := by
  cases wb with
  | none => exact hp
  | some v => exact h.writeArm _ _ _ hp

theorem Keeps.load (h : Keeps i P) {regs : List (BitVec 5)} {start : Word} {words : Nat} {rn : ArmReg}
    {wb : Option Word} (s t : State) (hp : P s) (ht : s.load regs start words rn wb = .next t) : P t := by
  obtain ⟨_, _, rfl⟩ := State.load_next ht
  exact h.advance _ (h.writeBase _ _ _ (h.loadWords _ _ hp))

theorem Keeps.store (h : Keeps i P) (hs : isStore i = true) {regs : List (BitVec 5)} {start : Word} {words : Nat}
    {rn : ArmReg} {wb : Option Word} (s t : State) (hp : P s) (ht : s.store regs start words rn wb = .next t) :
    P t := by
  obtain ⟨_, _, rfl⟩ := State.store_next ht
  exact h.advance _ (h.writeBase _ _ _ (h.storeWords hs _ _ hp))

theorem Keeps.loadSingle (h : Keeps i P) {u : Bool} {rn : ArmReg} {off : BitVec 8} {regs : List (BitVec 5)}
    (s t : State) (hp : P s) (ht : loadSingle i u rn off regs s = .next t) : P t :=
  h.checked s t (fun _ t ht => h.issueTransfer (fun u t hu ht => h.load u t hu ht) s t hp ht) hp ht

theorem Keeps.storeSingle (h : Keeps i P) (hs : isStore i = true) {u : Bool} {rn : ArmReg} {off : BitVec 8}
    {regs : List (BitVec 5)} (s t : State) (hp : P s) (ht : storeSingle i u rn off regs s = .next t) : P t :=
  h.checked s t (fun _ t ht => h.issueTransfer (fun u t hu ht => h.store hs u t hu ht) s t hp ht) hp ht

theorem Keeps.loadMultiple (h : Keeps i P) {mode : ListMode} {rn : ArmReg} {regs : List (BitVec 5)} {words : Nat}
    (s t : State) (hp : P s) (ht : loadMultiple i mode rn regs words s = .next t) : P t :=
  h.checked s t (fun _ t ht => h.issueTransfer (fun u t hu ht => h.load u t hu ht) s t hp ht) hp ht

theorem Keeps.storeMultiple (h : Keeps i P) (hs : isStore i = true) {mode : ListMode} {rn : ArmReg}
    {regs : List (BitVec 5)} {words : Nat} (s t : State) (hp : P s)
    (ht : storeMultiple i mode rn regs words s = .next t) : P t :=
  h.checked s t (fun _ t ht => h.issueTransfer (fun u t hu ht => h.store hs u t hu ht) s t hp ht) hp ht

theorem Keeps.moveIn (h : Keeps i P) {regs : List (BitVec 5)} {f : State → State} (hf : ∀ u, P u → P (f u))
    (s t : State) (hp : P s) (ht : moveIn i regs f s = .next t) : P t := by
  refine h.checked s t (fun _ t ht => h.issueTransfer (fun u t hu ht => ?_) s t hp ht) hp ht
  simp only [Host.Outcome.next.injEq] at ht
  exact ht ▸ h.advance _ (hf _ hu)

theorem Keeps.moveOut (h : Keeps i P) {regs : List (BitVec 5)} {f : State → State} (hf : ∀ u, P u → P (f u))
    (s t : State) (hp : P s) (ht : moveOut i regs f s = .next t) : P t := by
  refine h.checked s t (fun _ t ht => h.issueTransfer (fun u t hu ht => ?_) s t hp ht) hp ht
  simp only [Host.Outcome.next.injEq] at ht
  exact ht ▸ h.advance _ (hf _ hu)

/-- What completing an iteration keeps holds after all the iterations of level A. -/
theorem State.archIterations_keeps {Q : State → Prop} (hc : ∀ s c e fl, Q s → Q (State.complete s c e fl))
    (c : Cdp) (sh : Shape) (w : Word) (k left : Nat) (s t : State) (hq : Q s)
    (h : s.archIterations c sh w k left = .next t) : Q t := by
  induction left generalizing s k with
  | zero => simp only [State.archIterations, Host.Outcome.next.injEq] at h; exact h ▸ hq
  | succ rest ih =>
    simp only [State.archIterations] at h
    split at h
    · exact ih _ _ (hc _ _ _ _ hq) h
    · simp at h

theorem State.completeExceptional_keeps {Q : State → Prop} (hc : ∀ s c e fl, Q s → Q (State.complete s c e fl))
    (word : Word) (remaining : Nat) (s t : State) (hq : Q s) (h : s.completeExceptional word remaining = .next t) :
    Q t := by
  unfold State.completeExceptional at h
  split at h
  · simp at h
  · exact State.archIterations_keeps hc _ _ _ _ _ _ _ hq h

theorem State.completeCaptured_keeps {Q : State → Prop} (hc : ∀ s c e fl, Q s → Q (State.complete s c e fl))
    (word : Word) (s t : State) (hq : Q s) (h : s.completeCaptured word = .next t) : Q t := by
  unfold State.completeCaptured at h
  split at h
  · simp at h
  · split at h
    · simp at h
    · exact State.archIterations_keeps hc _ _ _ _ _ _ _ hq h

/-- The support code: what completing an iteration keeps holds after it, between the entry and the return. -/
theorem State.supportCode_keeps {Q : State → Prop} (hc : ∀ s c e fl, Q s → Q (State.complete s c e fl)) (s t : State)
    (hq : ∀ u, (u = s ∨ u = s.drawWord.2) → Q (u.takeUndefined.setFpexc (Fpexc.clearState s.fpexc)))
    (h : s.supportCode = .next t) : ∃ w, Q w ∧ t = w.returnFromUndefined := by
  obtain ⟨u, v, w, hu, hv, hw, rfl⟩ := State.supportCode_next h
  have hqv := State.completeExceptional_keeps hc _ _ _ _ (hq u hu) hv
  refine ⟨w, ?_, rfl⟩
  rcases hw with rfl | hw
  · exact hqv
  · exact State.completeCaptured_keeps hc _ _ _ hqv hw

theorem Keeps.sysAccess (h : Keeps i P) {reg : SysReg} {f : State → Result}
    (hf : ∀ u t, u.win = .closed → u.accessible (.sys reg) = true → P u → f u = .next t → P t)
    (s t : State) (hp : P s) (ht : sysAccess i reg f s = .next t) : P t := by
  refine h.checked s t (fun ha t ht => ?_) hp ht
  rcases issueSerial_next ht with ⟨_, _, hg⟩ | hg
  · rcases trigger_next hg with ⟨_, rfl⟩ | ⟨_, u, hu, hg⟩
    · exact h.undefined _ (h.closeWin _ hp)
    · refine hf u t ?_ ?_ (h.support _ _ (h.closeWin _ hp) hu) hg
      · obtain ⟨w, hw, rfl⟩ := State.supportCode_keeps (Q := fun u => u.win = .closed)
          (fun s c e fl hs => by simpa using hs)
          s.closeWin u (fun v hv => by rcases hv with rfl | rfl <;> rfl) hu
        exact hw
      · obtain ⟨w, hw, rfl⟩ := State.supportCode_keeps
          (Q := fun u => u.cpAccess = s.cpAccess ∧ u.spsrUnd = s.cpsr ∧ Fpexc.en u.fpexc = Fpexc.en s.fpexc)
          (fun s' c e fl hs => by simpa using hs)
          s.closeWin u (fun v hv => by
            have hen : Fpexc.en (Fpexc.clearState s.fpexc) = Fpexc.en s.fpexc := by
              simp [Fpexc.en, Fpexc.clearState, bitAt]
            rcases hv with rfl | rfl <;> exact ⟨rfl, rfl, hen⟩) hu
        obtain ⟨h1, h2, h3⟩ := hw
        unfold State.accessible State.cpAllows at ha ⊢
        simpa [h1, h2, h3] using ha
  · exact hf s.closeWin _ rfl ha (h.closeWin _ hp) hg

/-- A property every primitive update keeps is kept by every instruction that answers a next state. -/
theorem exec_keeps (i : Instr) {P : State → Prop} (h : Keeps i P) (s t : State) (hp : P s) (ht : exec i s = .next t) :
    P t := by
  cases i
  case fmsr => exact h.moveIn (fun u hu => h.writeS _ _ _ hu) s t hp ht
  case fmrs => exact h.moveOut (fun u hu => h.writeArm _ _ _ hu) s t hp ht
  case fmdlr => exact h.moveIn (fun u hu => h.writeS _ _ _ hu) s t hp ht
  case fmrdl => exact h.moveOut (fun u hu => h.writeArm _ _ _ hu) s t hp ht
  case fmdhr => exact h.moveIn (fun u hu => h.writeS _ _ _ hu) s t hp ht
  case fmrdh => exact h.moveOut (fun u hu => h.writeArm _ _ _ hu) s t hp ht
  case fmdrr => exact h.moveIn (fun u hu => h.writeS _ _ _ (h.writeS _ _ _ hu)) s t hp ht
  case fmrrd => exact h.moveOut (fun u hu => h.writeArm _ _ _ (h.writeArm _ _ _ hu)) s t hp ht
  case fmsrr => exact h.moveIn (fun u hu => h.writeS _ _ _ (h.writeS _ _ _ hu)) s t hp ht
  case fmrrs => exact h.moveOut (fun u hu => h.writeArm _ _ _ (h.writeArm _ _ _ hu)) s t hp ht
  case fmxr c reg rd sbz =>
    refine h.sysAccess (fun u t hw ha hu hf => ?_) s t hp ht
    cases hv : u.writeSys reg (u.readArm rd) with
    | none => simp [hv] at hf
    | some v =>
      simp only [hv, Host.Outcome.next.injEq] at hf
      exact hf ▸ h.advance _ (h.writeSys c reg rd sbz rfl u _ v ha hw hu hv)
  case fmrx c rd reg sbz =>
    refine h.sysAccess (fun u t hw ha hu hf => ?_) s t hp ht
    simp only [Host.Outcome.next.injEq] at hf
    refine hf ▸ h.advance _ (h.writeArm _ _ _ ?_)
    cases reg <;> first | exact hu | (simp only [State.readSys]; split; exacts [hu, h.drawWord _ hu])
  case fmstat =>
    refine h.sysAccess (fun u t hw ha hu hf => ?_) s t hp ht
    simp only [Host.Outcome.next.injEq] at hf
    exact hf ▸ h.advance _ (h.cpsr _ _ hu)
  case fmacs | fmacd | fnmacs | fnmacd | fmscs | fmscd | fnmscs | fnmscd | fmuls | fmuld | fnmuls | fnmuld |
      fadds | faddd | fsubs | fsubd | fdivs | fdivd | fcpys | fcpyd | fabss | fabsd | fnegs | fnegd |
      fsqrts | fsqrtd | fcmps | fcmpd | fcmpes | fcmped | fcmpzs | fcmpzd | fcmpezs | fcmpezd | fcvtds |
      fcvtsd | fuitos | fuitod | fsitos | fsitod | ftouis | ftouid | ftouizs | ftouizd | ftosis | ftosid |
      ftosizs | ftosizd => exact h.execCdp _ s t hp ht
  case flds | fldd => exact h.loadSingle s t hp ht
  case fsts | fstd => exact h.storeSingle rfl s t hp ht
  case fldmsIa | fldmsIaWb | fldmsDbWb | fldmdIa | fldmdIaWb | fldmdDbWb | fldmxIa | fldmxIaWb | fldmxDbWb => exact h.loadMultiple s t hp ht
  case fstmsIa | fstmsIaWb | fstmsDbWb | fstmdIa | fstmdIaWb | fstmdDbWb | fstmxIa | fstmxIaWb | fstmxDbWb => exact h.storeMultiple rfl s t hp ht

end Sys2Proof.Machine
end

