-- ==== Sys2Proof/Laws/Memory.lean ====
section
/-! SUPPORT. Memory: a read after a write, and the canonical form that every memory operation keeps. -/

namespace Sys2Proof.Machine

/-! ### Reading -/

theorem Memory.read_filter_ne (m : List Host.Cell) (a x : Nat) (h : x ≠ a) :
    Memory.read (m.filter (fun c => c.1 != a)) x = Memory.read m x := by
  induction m with
  | nil => rfl
  | cons c rest ih =>
    by_cases hc : c.1 = a
    · have hx : ¬ c.1 = x := fun e => h (e.symm.trans hc)
      simp [hc, Memory.read, ih, Ne.symm h]
    · by_cases hx : c.1 = x
      · simp [Memory.read, hx, h]
      · simp [hc, Memory.read, hx, ih]

theorem Memory.read_filter_self (m : List Host.Cell) (a : Nat) :
    Memory.read (m.filter (fun c => c.1 != a)) a = Memory.unlisted := by
  induction m with
  | nil => rfl
  | cons c rest ih => by_cases hc : c.1 = a <;> simp [hc, Memory.read, ih]

theorem Memory.read_insert_ne (m : List Host.Cell) (a : Nat) (b : Byte) (x : Nat) (h : x ≠ a) :
    Memory.read (Memory.insert m a b) x = Memory.read m x := by
  induction m with
  | nil => simp [Memory.insert, Memory.read, Ne.symm h]
  | cons c rest ih =>
    simp only [Memory.insert]
    split
    · simp [Memory.read, Ne.symm h]
    · simp [Memory.read, ih]

theorem Memory.read_insert_self (m : List Host.Cell) (a : Nat) (b : Byte) (h : ∀ c ∈ m, c.1 ≠ a) :
    Memory.read (Memory.insert m a b) a = b := by
  induction m with
  | nil => simp [Memory.insert, Memory.read]
  | cons c rest ih =>
    simp only [Memory.insert]
    split
    · simp [Memory.read]
    · simp only [Memory.read, if_neg (h c (by simp))]
      exact ih (fun d hd => h d (by simp [hd]))

theorem Memory.mem_filter_ne (m : List Host.Cell) (a : Nat) :
    ∀ c ∈ m.filter (fun c => c.1 != a), c.1 ≠ a := by
  intro c hc
  simpa using (List.mem_filter.mp hc).2

/-- A read after a write, at the same address and at any other. -/
theorem Memory.read_write (m : List Host.Cell) (a : Nat) (b : Byte) (x : Nat) :
    Memory.read (Memory.write m a b) x = if x = a then b else Memory.read m x := by
  unfold Memory.write
  by_cases hx : x = a
  · subst hx
    by_cases hb : b = Memory.unlisted
    · simp [hb, Memory.read_filter_self]
    · simp only [if_neg hb, if_pos]
      exact Memory.read_insert_self _ _ _ (Memory.mem_filter_ne m x)
  · simp only [if_neg hx]
    split
    · exact Memory.read_filter_ne m a x hx
    · rw [Memory.read_insert_ne _ _ _ _ hx, Memory.read_filter_ne m a x hx]

/-! ### The canonical form -/

theorem Memory.mem_insert (m : List Host.Cell) (a : Nat) (b : Byte) (c : Host.Cell)
    (h : c ∈ Memory.insert m a b) : c = (a, b) ∨ c ∈ m := by
  induction m with
  | nil => simpa [Memory.insert] using h
  | cons d rest ih =>
    simp only [Memory.insert] at h
    split at h
    · simpa using h
    · rcases List.mem_cons.mp h with h | h
      · simp [h]
      · rcases ih h with h | h <;> simp [h]

theorem Memory.pairwise_insert (m : List Host.Cell) (a : Nat) (b : Byte)
    (hm : m.Pairwise (fun c d => c.1 < d.1)) (ha : ∀ c ∈ m, c.1 ≠ a) :
    (Memory.insert m a b).Pairwise (fun c d => c.1 < d.1) := by
  induction m with
  | nil => simp [Memory.insert]
  | cons d rest ih =>
    obtain ⟨hd, hrest⟩ := List.pairwise_cons.mp hm
    simp only [Memory.insert]
    split
    next hlt =>
      refine List.pairwise_cons.mpr ⟨fun c hc => ?_, hm⟩
      rcases List.mem_cons.mp hc with h | h
      · simpa [h] using hlt
      · exact Nat.lt_trans hlt (hd c h)
    next hge =>
      refine List.pairwise_cons.mpr ⟨fun c hc => ?_, ih hrest (fun c hc => ha c (by simp [hc]))⟩
      rcases Memory.mem_insert _ _ _ _ hc with h | h
      · have := ha d (by simp)
        subst h
        show d.1 < a
        omega
      · exact hd c h

/-- A write keeps the canonical form. -/
theorem Memory.write_wf (m : List Host.Cell) (a : Nat) (b : Byte) (h : Memory.wf m) : Memory.wf (Memory.write m a b) := by
  obtain ⟨hp, hv⟩ := h
  have hp' := hp.filter (fun c : Host.Cell => c.1 != a)
  have hv' : ∀ c ∈ m.filter (fun c => c.1 != a), c.2 ≠ Memory.unlisted := fun c hc => hv c (List.mem_of_mem_filter hc)
  unfold Memory.write
  split
  · exact ⟨hp', hv'⟩
  next hb =>
    refine ⟨Memory.pairwise_insert _ _ _ hp' (Memory.mem_filter_ne m a), fun c hc => ?_⟩
    rcases Memory.mem_insert _ _ _ _ hc with h | h
    · simpa [h] using hb
    · exact hv' c h

/-- The reset memory has the canonical form. -/
theorem reset_mem_wf : Memory.wf State.reset.mem := ⟨List.Pairwise.nil, fun _ h => by cases h⟩

/-- A word write keeps the canonical form. -/
theorem Memory.writeWord_wf (m : List Host.Cell) (a : Nat) (w : Word) (h : Memory.wf m) :
    Memory.wf (Memory.writeWord m a w) :=
  Memory.write_wf _ _ _ (Memory.write_wf _ _ _ (Memory.write_wf _ _ _ (Memory.write_wf _ _ _ h)))

/-! ### Words -/

/-- A byte outside a written word reads as before. -/
theorem State.readByte_placeWord_outside (s : State) (a : Nat) (w : Word) (x : Nat) (h : x < a ∨ a + 4 ≤ x) :
    (s.placeWord a w).readByte x = s.readByte x := by
  have h0 : x ≠ a := by omega
  have h1 : x ≠ a + 1 := by omega
  have h2 : x ≠ a + 2 := by omega
  have h3 : x ≠ a + 3 := by omega
  simp [State.readByte, Memory.writeWord, Memory.read_write, h0, h1, h2, h3]

theorem State.readByte_writeWord_outside (s : State) (a : Nat) (w : Word) (x : Nat) (h : x < a ∨ a + 4 ≤ x) :
    (s.writeWord a w).readByte x = s.readByte x :=
  State.readByte_placeWord_outside s a w x h

theorem wordOfBytes_byteOfWord (w : Word) :
    wordOfBytes (byteOfWord w 0) (byteOfWord w 1) (byteOfWord w 2) (byteOfWord w 3) = w := by
  apply BitVec.eq_of_getLsbD_eq
  intro i hi
  simp only [wordOfBytes, byteOfWord, BitVec.getLsbD_append, BitVec.getLsbD_extractLsb']
  by_cases h1 : i < 8
  · simp [h1]
  · by_cases h2 : i < 16
    · have : i - 8 < 8 := by omega
      simp [h1, this, show 8 + (i - 8) = i by omega]
    · by_cases h3 : i < 24
      · have : ¬ i - 8 < 8 := by omega
        have : i - 8 - 8 < 8 := by omega
        simp [*, show 16 + (i - 8 - 8) = i by omega]
      · have : ¬ i - 8 < 8 := by omega
        have : ¬ i - 8 - 8 < 8 := by omega
        have : i - 8 - 8 - 8 < 8 := by omega
        simp [*, show 24 + (i - 8 - 8 - 8) = i by omega]

/-- A word read after it was written. -/
theorem State.readWord_placeWord_self (s : State) (a : Nat) (w : Word) : (s.placeWord a w).readWord a = w := by
  simp [State.readWord, State.readByte, Memory.writeWord, Memory.read_write, wordOfBytes_byteOfWord]

theorem State.readWord_writeWord_self (s : State) (a : Nat) (w : Word) : (s.writeWord a w).readWord a = w :=
  State.readWord_placeWord_self s a w

/-- A word that does not overlap a written one reads as before. -/
theorem State.readWord_writeWord_other (s : State) (a x : Nat) (w : Word) (h : x + 4 ≤ a ∨ a + 4 ≤ x) :
    (s.writeWord a w).readWord x = s.readWord x := by
  simp only [State.readWord]
  rw [State.readByte_writeWord_outside _ _ _ _ (by omega), State.readByte_writeWord_outside _ _ _ _ (by omega),
    State.readByte_writeWord_outside _ _ _ _ (by omega), State.readByte_writeWord_outside _ _ _ _ (by omega)]

end Sys2Proof.Machine
end

