-- ==== Sys2Proof/Laws/PerInstr.lean ====
section
/-! SUPPORT. Statements about every instruction as syntax, one lemma per constructor: the word of an instruction carries
its condition and is addressed to the VFP11 (30_encoding.md R120, R122). -/

namespace Sys2Proof

/-- The word of the instruction has its condition in [31:28], 11 in [27:26] and coprocessor 10 or 11 in [11:9]. -/
def Laws.VfpWord.Statement (i : Instr) : Prop :=
  field (encode i) 28 4 = i.cond.code ∧ field (encode i) 9 3 = 0b101#3 ∧ bitAt (encode i) 27 = true

theorem bit27_of_class {w : Word} {v : BitVec 4} (h : field w 24 4 = v) : bitAt w 27 = v.getLsbD 3 := by
  have := congrArg (fun x => BitVec.getLsbD x 3) h
  simp only [field, BitVec.getLsbD_extractLsb'] at this
  simpa [bitAt] using this

theorem Laws.cdpWord_isVfp (c : Cond) (pqrs : BitVec 4) (dbl : BitVec 1) (d n m : BitVec 5) :
    field (cdpWord c pqrs dbl d n m) 28 4 = c.code ∧ field (cdpWord c pqrs dbl d n m) 9 3 = 0b101#3 ∧
      bitAt (cdpWord c pqrs dbl d n m) 27 = true :=
  ⟨cdpWord_cond .., cdpWord_cp .., bit27_of_class (cdpWord_class ..)⟩

theorem Laws.transferWord_isVfp (c : Cond) (opc : BitVec 3) (l dbl : BitVec 1) (n : BitVec 5) (rd : ArmReg)
    (sbz : BitVec 6) :
    field (transferWord c opc l dbl n rd sbz) 28 4 = c.code ∧ field (transferWord c opc l dbl n rd sbz) 9 3 = 0b101#3 ∧
      bitAt (transferWord c opc l dbl n rd sbz) 27 = true :=
  ⟨transferWord_cond .., transferWord_cp .., bit27_of_class (transferWord_class ..)⟩

theorem Laws.pairWord_isVfp (c : Cond) (l dbl : BitVec 1) (rn rd : ArmReg) (m : BitVec 5) :
    field (pairWord c l dbl rn rd m) 28 4 = c.code ∧ field (pairWord c l dbl rn rd m) 9 3 = 0b101#3 ∧
      bitAt (pairWord c l dbl rn rd m) 27 = true :=
  ⟨pairWord_cond .., pairWord_cp .., bit27_of_class (pairWord_class ..)⟩

theorem Laws.loadStoreWord_isVfp (c : Cond) (p u w l dbl : BitVec 1) (rn : ArmReg) (d : BitVec 5) (off : BitVec 8) :
    field (loadStoreWord c p u w l dbl rn d off) 28 4 = c.code ∧
      field (loadStoreWord c p u w l dbl rn d off) 9 3 = 0b101#3 ∧
      bitAt (loadStoreWord c p u w l dbl rn d off) 27 = true := by
  refine ⟨loadStoreWord_cond .., loadStoreWord_cp .., (bit27_of_class (loadStoreWord_class ..)).trans ?_⟩
  revert p
  decide

theorem Laws.VfpWord.fmacs (c : Cond) (d n m : SReg) : Laws.VfpWord.Statement (.fmacs c d n m) := Laws.cdpWord_isVfp ..
theorem Laws.VfpWord.fmacd (c : Cond) (d n m : DReg) : Laws.VfpWord.Statement (.fmacd c d n m) := Laws.cdpWord_isVfp ..
theorem Laws.VfpWord.fnmacs (c : Cond) (d n m : SReg) : Laws.VfpWord.Statement (.fnmacs c d n m) := Laws.cdpWord_isVfp ..
theorem Laws.VfpWord.fnmacd (c : Cond) (d n m : DReg) : Laws.VfpWord.Statement (.fnmacd c d n m) := Laws.cdpWord_isVfp ..
theorem Laws.VfpWord.fmscs (c : Cond) (d n m : SReg) : Laws.VfpWord.Statement (.fmscs c d n m) := Laws.cdpWord_isVfp ..
theorem Laws.VfpWord.fmscd (c : Cond) (d n m : DReg) : Laws.VfpWord.Statement (.fmscd c d n m) := Laws.cdpWord_isVfp ..
theorem Laws.VfpWord.fnmscs (c : Cond) (d n m : SReg) : Laws.VfpWord.Statement (.fnmscs c d n m) := Laws.cdpWord_isVfp ..
theorem Laws.VfpWord.fnmscd (c : Cond) (d n m : DReg) : Laws.VfpWord.Statement (.fnmscd c d n m) := Laws.cdpWord_isVfp ..
theorem Laws.VfpWord.fmuls (c : Cond) (d n m : SReg) : Laws.VfpWord.Statement (.fmuls c d n m) := Laws.cdpWord_isVfp ..
theorem Laws.VfpWord.fmuld (c : Cond) (d n m : DReg) : Laws.VfpWord.Statement (.fmuld c d n m) := Laws.cdpWord_isVfp ..
theorem Laws.VfpWord.fnmuls (c : Cond) (d n m : SReg) : Laws.VfpWord.Statement (.fnmuls c d n m) := Laws.cdpWord_isVfp ..
theorem Laws.VfpWord.fnmuld (c : Cond) (d n m : DReg) : Laws.VfpWord.Statement (.fnmuld c d n m) := Laws.cdpWord_isVfp ..
theorem Laws.VfpWord.fadds (c : Cond) (d n m : SReg) : Laws.VfpWord.Statement (.fadds c d n m) := Laws.cdpWord_isVfp ..
theorem Laws.VfpWord.faddd (c : Cond) (d n m : DReg) : Laws.VfpWord.Statement (.faddd c d n m) := Laws.cdpWord_isVfp ..
theorem Laws.VfpWord.fsubs (c : Cond) (d n m : SReg) : Laws.VfpWord.Statement (.fsubs c d n m) := Laws.cdpWord_isVfp ..
theorem Laws.VfpWord.fsubd (c : Cond) (d n m : DReg) : Laws.VfpWord.Statement (.fsubd c d n m) := Laws.cdpWord_isVfp ..
theorem Laws.VfpWord.fdivs (c : Cond) (d n m : SReg) : Laws.VfpWord.Statement (.fdivs c d n m) := Laws.cdpWord_isVfp ..
theorem Laws.VfpWord.fdivd (c : Cond) (d n m : DReg) : Laws.VfpWord.Statement (.fdivd c d n m) := Laws.cdpWord_isVfp ..
theorem Laws.VfpWord.fcpys (c : Cond) (d m : SReg) : Laws.VfpWord.Statement (.fcpys c d m) := Laws.cdpWord_isVfp ..
theorem Laws.VfpWord.fcpyd (c : Cond) (d m : DReg) : Laws.VfpWord.Statement (.fcpyd c d m) := Laws.cdpWord_isVfp ..
theorem Laws.VfpWord.fabss (c : Cond) (d m : SReg) : Laws.VfpWord.Statement (.fabss c d m) := Laws.cdpWord_isVfp ..
theorem Laws.VfpWord.fabsd (c : Cond) (d m : DReg) : Laws.VfpWord.Statement (.fabsd c d m) := Laws.cdpWord_isVfp ..
theorem Laws.VfpWord.fnegs (c : Cond) (d m : SReg) : Laws.VfpWord.Statement (.fnegs c d m) := Laws.cdpWord_isVfp ..
theorem Laws.VfpWord.fnegd (c : Cond) (d m : DReg) : Laws.VfpWord.Statement (.fnegd c d m) := Laws.cdpWord_isVfp ..
theorem Laws.VfpWord.fsqrts (c : Cond) (d m : SReg) : Laws.VfpWord.Statement (.fsqrts c d m) := Laws.cdpWord_isVfp ..
theorem Laws.VfpWord.fsqrtd (c : Cond) (d m : DReg) : Laws.VfpWord.Statement (.fsqrtd c d m) := Laws.cdpWord_isVfp ..
theorem Laws.VfpWord.fcmps (c : Cond) (d m : SReg) : Laws.VfpWord.Statement (.fcmps c d m) := Laws.cdpWord_isVfp ..
theorem Laws.VfpWord.fcmpd (c : Cond) (d m : DReg) : Laws.VfpWord.Statement (.fcmpd c d m) := Laws.cdpWord_isVfp ..
theorem Laws.VfpWord.fcmpes (c : Cond) (d m : SReg) : Laws.VfpWord.Statement (.fcmpes c d m) := Laws.cdpWord_isVfp ..
theorem Laws.VfpWord.fcmped (c : Cond) (d m : DReg) : Laws.VfpWord.Statement (.fcmped c d m) := Laws.cdpWord_isVfp ..
theorem Laws.VfpWord.fcmpzs (c : Cond) (d : SReg) (sbz : BitVec 5) : Laws.VfpWord.Statement (.fcmpzs c d sbz) := Laws.cdpWord_isVfp ..
theorem Laws.VfpWord.fcmpzd (c : Cond) (d : DReg) (sbz : BitVec 5) : Laws.VfpWord.Statement (.fcmpzd c d sbz) := Laws.cdpWord_isVfp ..
theorem Laws.VfpWord.fcmpezs (c : Cond) (d : SReg) (sbz : BitVec 5) : Laws.VfpWord.Statement (.fcmpezs c d sbz) := Laws.cdpWord_isVfp ..
theorem Laws.VfpWord.fcmpezd (c : Cond) (d : DReg) (sbz : BitVec 5) : Laws.VfpWord.Statement (.fcmpezd c d sbz) := Laws.cdpWord_isVfp ..
theorem Laws.VfpWord.fcvtds (c : Cond) (d : DReg) (m : SReg) : Laws.VfpWord.Statement (.fcvtds c d m) := Laws.cdpWord_isVfp ..
theorem Laws.VfpWord.fcvtsd (c : Cond) (d : SReg) (m : DReg) : Laws.VfpWord.Statement (.fcvtsd c d m) := Laws.cdpWord_isVfp ..
theorem Laws.VfpWord.fuitos (c : Cond) (d : SReg) (m : SReg) : Laws.VfpWord.Statement (.fuitos c d m) := Laws.cdpWord_isVfp ..
theorem Laws.VfpWord.fuitod (c : Cond) (d : DReg) (m : SReg) : Laws.VfpWord.Statement (.fuitod c d m) := Laws.cdpWord_isVfp ..
theorem Laws.VfpWord.fsitos (c : Cond) (d : SReg) (m : SReg) : Laws.VfpWord.Statement (.fsitos c d m) := Laws.cdpWord_isVfp ..
theorem Laws.VfpWord.fsitod (c : Cond) (d : DReg) (m : SReg) : Laws.VfpWord.Statement (.fsitod c d m) := Laws.cdpWord_isVfp ..
theorem Laws.VfpWord.ftouis (c : Cond) (d : SReg) (m : SReg) : Laws.VfpWord.Statement (.ftouis c d m) := Laws.cdpWord_isVfp ..
theorem Laws.VfpWord.ftouid (c : Cond) (d : SReg) (m : DReg) : Laws.VfpWord.Statement (.ftouid c d m) := Laws.cdpWord_isVfp ..
theorem Laws.VfpWord.ftouizs (c : Cond) (d : SReg) (m : SReg) : Laws.VfpWord.Statement (.ftouizs c d m) := Laws.cdpWord_isVfp ..
theorem Laws.VfpWord.ftouizd (c : Cond) (d : SReg) (m : DReg) : Laws.VfpWord.Statement (.ftouizd c d m) := Laws.cdpWord_isVfp ..
theorem Laws.VfpWord.ftosis (c : Cond) (d : SReg) (m : SReg) : Laws.VfpWord.Statement (.ftosis c d m) := Laws.cdpWord_isVfp ..
theorem Laws.VfpWord.ftosid (c : Cond) (d : SReg) (m : DReg) : Laws.VfpWord.Statement (.ftosid c d m) := Laws.cdpWord_isVfp ..
theorem Laws.VfpWord.ftosizs (c : Cond) (d : SReg) (m : SReg) : Laws.VfpWord.Statement (.ftosizs c d m) := Laws.cdpWord_isVfp ..
theorem Laws.VfpWord.ftosizd (c : Cond) (d : SReg) (m : DReg) : Laws.VfpWord.Statement (.ftosizd c d m) := Laws.cdpWord_isVfp ..
theorem Laws.VfpWord.flds (c : Cond) (u : Bool) (rn : ArmReg) (d : SReg) (offset8 : BitVec 8) : Laws.VfpWord.Statement (.flds c u rn d offset8) := Laws.loadStoreWord_isVfp ..
theorem Laws.VfpWord.fldd (c : Cond) (u : Bool) (rn : ArmReg) (d : DReg) (offset8 : BitVec 8) : Laws.VfpWord.Statement (.fldd c u rn d offset8) := Laws.loadStoreWord_isVfp ..
theorem Laws.VfpWord.fsts (c : Cond) (u : Bool) (rn : ArmReg) (d : SReg) (offset8 : BitVec 8) : Laws.VfpWord.Statement (.fsts c u rn d offset8) := Laws.loadStoreWord_isVfp ..
theorem Laws.VfpWord.fstd (c : Cond) (u : Bool) (rn : ArmReg) (d : DReg) (offset8 : BitVec 8) : Laws.VfpWord.Statement (.fstd c u rn d offset8) := Laws.loadStoreWord_isVfp ..
theorem Laws.VfpWord.fldmsIa (c : Cond) (rn : ArmReg) (d : SReg) (n : BitVec 8) : Laws.VfpWord.Statement (.fldmsIa c rn d n) := Laws.loadStoreWord_isVfp ..
theorem Laws.VfpWord.fldmsIaWb (c : Cond) (rn : ArmReg) (d : SReg) (n : BitVec 8) : Laws.VfpWord.Statement (.fldmsIaWb c rn d n) := Laws.loadStoreWord_isVfp ..
theorem Laws.VfpWord.fldmsDbWb (c : Cond) (rn : ArmReg) (d : SReg) (n : BitVec 8) : Laws.VfpWord.Statement (.fldmsDbWb c rn d n) := Laws.loadStoreWord_isVfp ..
theorem Laws.VfpWord.fldmdIa (c : Cond) (rn : ArmReg) (d : DReg) (n : BitVec 7) : Laws.VfpWord.Statement (.fldmdIa c rn d n) := Laws.loadStoreWord_isVfp ..
theorem Laws.VfpWord.fldmdIaWb (c : Cond) (rn : ArmReg) (d : DReg) (n : BitVec 7) : Laws.VfpWord.Statement (.fldmdIaWb c rn d n) := Laws.loadStoreWord_isVfp ..
theorem Laws.VfpWord.fldmdDbWb (c : Cond) (rn : ArmReg) (d : DReg) (n : BitVec 7) : Laws.VfpWord.Statement (.fldmdDbWb c rn d n) := Laws.loadStoreWord_isVfp ..
theorem Laws.VfpWord.fldmxIa (c : Cond) (rn : ArmReg) (d : DReg) (n : BitVec 7) : Laws.VfpWord.Statement (.fldmxIa c rn d n) := Laws.loadStoreWord_isVfp ..
theorem Laws.VfpWord.fldmxIaWb (c : Cond) (rn : ArmReg) (d : DReg) (n : BitVec 7) : Laws.VfpWord.Statement (.fldmxIaWb c rn d n) := Laws.loadStoreWord_isVfp ..
theorem Laws.VfpWord.fldmxDbWb (c : Cond) (rn : ArmReg) (d : DReg) (n : BitVec 7) : Laws.VfpWord.Statement (.fldmxDbWb c rn d n) := Laws.loadStoreWord_isVfp ..
theorem Laws.VfpWord.fstmsIa (c : Cond) (rn : ArmReg) (d : SReg) (n : BitVec 8) : Laws.VfpWord.Statement (.fstmsIa c rn d n) := Laws.loadStoreWord_isVfp ..
theorem Laws.VfpWord.fstmsIaWb (c : Cond) (rn : ArmReg) (d : SReg) (n : BitVec 8) : Laws.VfpWord.Statement (.fstmsIaWb c rn d n) := Laws.loadStoreWord_isVfp ..
theorem Laws.VfpWord.fstmsDbWb (c : Cond) (rn : ArmReg) (d : SReg) (n : BitVec 8) : Laws.VfpWord.Statement (.fstmsDbWb c rn d n) := Laws.loadStoreWord_isVfp ..
theorem Laws.VfpWord.fstmdIa (c : Cond) (rn : ArmReg) (d : DReg) (n : BitVec 7) : Laws.VfpWord.Statement (.fstmdIa c rn d n) := Laws.loadStoreWord_isVfp ..
theorem Laws.VfpWord.fstmdIaWb (c : Cond) (rn : ArmReg) (d : DReg) (n : BitVec 7) : Laws.VfpWord.Statement (.fstmdIaWb c rn d n) := Laws.loadStoreWord_isVfp ..
theorem Laws.VfpWord.fstmdDbWb (c : Cond) (rn : ArmReg) (d : DReg) (n : BitVec 7) : Laws.VfpWord.Statement (.fstmdDbWb c rn d n) := Laws.loadStoreWord_isVfp ..
theorem Laws.VfpWord.fstmxIa (c : Cond) (rn : ArmReg) (d : DReg) (n : BitVec 7) : Laws.VfpWord.Statement (.fstmxIa c rn d n) := Laws.loadStoreWord_isVfp ..
theorem Laws.VfpWord.fstmxIaWb (c : Cond) (rn : ArmReg) (d : DReg) (n : BitVec 7) : Laws.VfpWord.Statement (.fstmxIaWb c rn d n) := Laws.loadStoreWord_isVfp ..
theorem Laws.VfpWord.fstmxDbWb (c : Cond) (rn : ArmReg) (d : DReg) (n : BitVec 7) : Laws.VfpWord.Statement (.fstmxDbWb c rn d n) := Laws.loadStoreWord_isVfp ..
theorem Laws.VfpWord.fmsr (c : Cond) (n : SReg) (rd : ArmReg) (sbz : BitVec 6) : Laws.VfpWord.Statement (.fmsr c n rd sbz) := Laws.transferWord_isVfp ..
theorem Laws.VfpWord.fmrs (c : Cond) (rd : ArmReg) (n : SReg) (sbz : BitVec 6) : Laws.VfpWord.Statement (.fmrs c rd n sbz) := Laws.transferWord_isVfp ..
theorem Laws.VfpWord.fmdlr (c : Cond) (n : DReg) (rd : ArmReg) (sbz : BitVec 6) : Laws.VfpWord.Statement (.fmdlr c n rd sbz) := Laws.transferWord_isVfp ..
theorem Laws.VfpWord.fmrdl (c : Cond) (rd : ArmReg) (n : DReg) (sbz : BitVec 6) : Laws.VfpWord.Statement (.fmrdl c rd n sbz) := Laws.transferWord_isVfp ..
theorem Laws.VfpWord.fmdhr (c : Cond) (n : DReg) (rd : ArmReg) (sbz : BitVec 6) : Laws.VfpWord.Statement (.fmdhr c n rd sbz) := Laws.transferWord_isVfp ..
theorem Laws.VfpWord.fmrdh (c : Cond) (rd : ArmReg) (n : DReg) (sbz : BitVec 6) : Laws.VfpWord.Statement (.fmrdh c rd n sbz) := Laws.transferWord_isVfp ..
theorem Laws.VfpWord.fmxr (c : Cond) (reg : SysReg) (rd : ArmReg) (sbz : BitVec 7) : Laws.VfpWord.Statement (.fmxr c reg rd sbz) := Laws.transferWord_isVfp ..
theorem Laws.VfpWord.fmrx (c : Cond) (rd : ArmReg) (reg : SysReg) (sbz : BitVec 7) : Laws.VfpWord.Statement (.fmrx c rd reg sbz) := Laws.transferWord_isVfp ..
theorem Laws.VfpWord.fmstat (c : Cond) (sbz : BitVec 7) : Laws.VfpWord.Statement (.fmstat c sbz) := Laws.transferWord_isVfp ..
theorem Laws.VfpWord.fmdrr (c : Cond) (m : DReg) (rd rn : ArmReg) : Laws.VfpWord.Statement (.fmdrr c m rd rn) := Laws.pairWord_isVfp ..
theorem Laws.VfpWord.fmrrd (c : Cond) (rd rn : ArmReg) (m : DReg) : Laws.VfpWord.Statement (.fmrrd c rd rn m) := Laws.pairWord_isVfp ..
theorem Laws.VfpWord.fmsrr (c : Cond) (m : SReg) (rd rn : ArmReg) : Laws.VfpWord.Statement (.fmsrr c m rd rn) := Laws.pairWord_isVfp ..
theorem Laws.VfpWord.fmrrs (c : Cond) (rd rn : ArmReg) (m : SReg) : Laws.VfpWord.Statement (.fmrrs c rd rn m) := Laws.pairWord_isVfp ..

end Sys2Proof
end

