-- ==== Sys2Proof/Laws/Registers.lean ====
section
/-! SUPPORT. Registers: a read after a write, of the general registers of either precision and of the ARM registers. -/

namespace Sys2Proof.Machine

/-! ### S registers -/

theorem State.readS_writeS (s : State) (r q : BitVec 5) (v : Word) :
    (s.writeS r v).readS q = if q = r then v else s.readS q := by
  by_cases h : q = r
  · subst h; simp [State.readS, State.writeS]
  · have : r.toNat ≠ q.toNat := fun e => h (BitVec.eq_of_toNat_eq e.symm)
    simp [State.readS, State.writeS, h, Vector.getElem_set_ne, this]

@[simp] theorem State.readS_writeS_self (s : State) (r : BitVec 5) (v : Word) : (s.writeS r v).readS r = v := by
  simp [State.readS_writeS]

theorem State.readS_writeS_other (s : State) (r q : BitVec 5) (v : Word) (h : q ≠ r) :
    (s.writeS r v).readS q = s.readS q := by
  simp [State.readS_writeS, h]

/-- Reading a register depends on the register file alone. -/
theorem State.readS_congr {s t : State} (h : t.sreg = s.sreg) (r : BitVec 5) : t.readS r = s.readS r := by
  simp [State.readS, h]

theorem State.isWritten_writeS (s : State) (r q : BitVec 5) (v : Word) :
    (s.writeS r v).isWritten q = if q = r then true else s.isWritten q := by
  by_cases h : q = r
  · subst h; simp [State.isWritten, State.writeS]
  · have : r.toNat ≠ q.toNat := fun e => h (BitVec.eq_of_toNat_eq e.symm)
    simp [State.isWritten, State.writeS, h, Vector.getElem_set_ne, this]

@[simp] theorem State.readS_writeArm (s : State) (n : BitVec 4) (v : Word) (r : BitVec 5) :
    (s.writeArm n v).readS r = s.readS r := State.readS_congr (by simp) r
@[simp] theorem State.readS_setFpscr (s : State) (v : Word) (r : BitVec 5) : (s.setFpscr v).readS r = s.readS r := rfl
@[simp] theorem State.readS_raise (s : State) (f : Cumulative) (r : BitVec 5) : (s.raise f).readS r = s.readS r := rfl
@[simp] theorem State.readS_setFpexc (s : State) (v : Word) (r : BitVec 5) : (s.setFpexc v).readS r = s.readS r := rfl
@[simp] theorem State.readS_setFpinst (s : State) (v : Word) (r : BitVec 5) : (s.setFpinst v).readS r = s.readS r := rfl
@[simp] theorem State.readS_setFpinst2 (s : State) (v : Word) (r : BitVec 5) : (s.setFpinst2 v).readS r = s.readS r := rfl
@[simp] theorem State.readS_setWin (s : State) (v : Window) (r : BitVec 5) : (s.setWin v).readS r = s.readS r := rfl
@[simp] theorem State.readS_closeWin (s : State) (r : BitVec 5) : s.closeWin.readS r = s.readS r := rfl
@[simp] theorem State.readS_setCpsr (s : State) (v : Word) (r : BitVec 5) : (s.setCpsr v).readS r = s.readS r := rfl
@[simp] theorem State.readS_advance (s : State) (r : BitVec 5) : s.advance.readS r = s.readS r := rfl
@[simp] theorem State.readS_takeUndefined (s : State) (r : BitVec 5) : s.takeUndefined.readS r = s.readS r := rfl
@[simp] theorem State.readS_draw (s : State) (r : BitVec 5) : s.draw.2.readS r = s.readS r := rfl
@[simp] theorem State.readS_drawIf (s : State) (b : Bool) (r : BitVec 5) : (s.drawIf b).2.readS r = s.readS r :=
  State.readS_congr (by simp) r
@[simp] theorem State.readS_writeWord (s : State) (a : Nat) (w : Word) (r : BitVec 5) :
    (s.writeWord a w).readS r = s.readS r := State.readS_congr (by simp) r

/-! ### D registers -/

theorem lowHalf_ne_highHalf (d e : DReg) : lowHalf d ≠ highHalf e := by
  revert d e; decide

theorem lowHalf_injective (d e : DReg) : lowHalf d = lowHalf e ↔ d = e := by
  revert d e; decide

theorem highHalf_injective (d e : DReg) : highHalf d = highHalf e ↔ d = e := by
  revert d e; decide

@[simp] theorem dOf_ofD (d : DReg) : dOf (ofD d) = d := by
  revert d; decide

theorem extract_append_halves (v : BitVec 64) : v.extractLsb' 32 32 ++ v.extractLsb' 0 32 = v := by
  apply BitVec.eq_of_getLsbD_eq
  intro i hi
  simp only [BitVec.getLsbD_append, BitVec.getLsbD_extractLsb']
  by_cases h : i < 32
  · simp [h]
  · simp [h, show i - 32 < 32 by omega, show 32 + (i - 32) = i by omega]

@[simp] theorem State.readD_writeD_self (s : State) (d : DReg) (v : BitVec 64) : (s.writeD d v).readD d = v := by
  simp [State.readD, State.writeD, State.readS_writeS, lowHalf_ne_highHalf, extract_append_halves]

theorem State.readD_writeD_other (s : State) (d e : DReg) (v : BitVec 64) (h : e ≠ d) :
    (s.writeD d v).readD e = s.readD e := by
  simp [State.readD, State.writeD, State.readS_writeS, lowHalf_ne_highHalf, Ne.symm (lowHalf_ne_highHalf _ _),
    lowHalf_injective, highHalf_injective, h]

/-- An S register that is neither half of a written D register reads as before. -/
theorem State.readS_writeD_other (s : State) (d : DReg) (v : BitVec 64) (r : BitVec 5) (hl : r ≠ lowHalf d)
    (hh : r ≠ highHalf d) : (s.writeD d v).readS r = s.readS r := by
  simp [State.writeD, State.readS_writeS, hl, hh]

/-! ### ARM registers -/

theorem State.readArm_writeArm (s : State) (n m : BitVec 4) (v : Word) (hn : n ≠ 15#4) :
    (s.writeArm n v).readArm m = if m = n then v else s.readArm m := by
  have hlt : n.toNat < 15 := by
    have := n.isLt
    have : n.toNat ≠ 15 := fun e => hn (BitVec.eq_of_toNat_eq e)
    omega
  unfold State.writeArm
  simp only [dif_pos hlt]
  unfold State.readArm
  by_cases h : m = n
  · subst h; simp [hlt]
  · have : n.toNat ≠ m.toNat := fun e => h (BitVec.eq_of_toNat_eq e.symm)
    simp only [h, if_false]
    split
    · simp [Vector.getElem_set_ne, this]
    · rfl

/-- Reading an ARM register depends on the ARM registers and the program counter alone. -/
theorem State.readArm_congr {s t : State} (h : t.arm = s.arm) (hp : t.pc = s.pc) (n : BitVec 4) :
    t.readArm n = s.readArm n := by
  simp [State.readArm, h, hp]

/-! ### Either precision -/

/-- The registers of either precision that a write changes. -/
theorem State.readS_writeReg_other (s : State) (p : Prec) (r : BitVec 5) (v : BitVec 64) (q : BitVec 5)
    (h : ¬ (regMask p r).getLsbD q.toNat = true) : (s.writeReg p r v).readS q = s.readS q := by
  cases p with
  | single =>
    refine State.readS_writeS_other _ _ _ _ ?_
    rintro rfl
    exact h (by simp [regMask, q.isLt])
  | double =>
    refine State.readS_writeD_other _ _ _ _ ?_ ?_
    · rintro rfl
      refine h ?_
      simp [regMask, (lowHalf (dOf r)).isLt]
    · rintro rfl
      refine h ?_
      simp [regMask, (highHalf (dOf r)).isLt]

end Sys2Proof.Machine
end

