-- ==== Sys2Proof/Tests/Slice0.lean ====
section
/-! SUPPORT. The author's own tests: the well-formedness checks, the decoding of the spec's words, single steps on the
spec's vectors, and for every statement a state that meets its hypotheses. -/

namespace Sys2Proof.Tests

set_option Elab.async false

open Sys2Proof.Machine

/-! ### Helpers -/

/-- The decoder reads the instruction from the word and the encoder writes the word from the instruction. -/
abbrev reads (w : Word) (i : Instr) : Prop := decode w = .instr i ∧ encode i = w ∧ i.WellFormed

/-- An enabled coprocessor in Supervisor mode at 0x8000, with this FPSCR. -/
def ready (fpscr : Word) : State :=
  { State.reset with cpAccess := .full, fpexc := 0x40000000#32, fpscr := fpscr, pc := 0x00008000#32 }

/-- What is seen of the next state, if there is one. -/
def look {α : Type} (r : Result) (f : State → α) : Option α :=
  match r with
  | .next t => some (f t)
  | _ => none

/-- What is seen after one instruction. -/
def after {α : Type} (i : Instr) (s : State) (f : State → α) : Option α := look (exec i s) f

/-- The refusal, if the result is one. -/
def refusalOf (r : Result) : Option Refusal :=
  match r with
  | .refused e => some e
  | _ => none

/-- The result is a next state. -/
def isNext (r : Result) : Bool := (look r (fun _ => true)).getD false

theorem exists_next {r : Result} (h : isNext r = true) : ∃ t, r = .next t := by
  cases r with
  | next t => exact ⟨t, rfl⟩
  | fault e => simp [isNext, look] at h
  | refused e => simp [isNext, look] at h

/-! ### Well-formedness: one ill-formed term for each check (95_test_vectors.md Part C, decode negatives) -/

theorem test_sbz_field_refused : (Instr.fcmpzs .al 0#5 1#5).unpredictable = some .sbzField := by decide
theorem test_sbz_transfer_refused : (Instr.fmsr .al 0#5 1#4 1#6).unpredictable = some .sbzField := by decide
theorem test_empty_list_refused : (Instr.fldmsIa .al 0#4 0#5 0#8).unpredictable = some .registerList := by decide
theorem test_list_past_s31_refused : (Instr.fldmsIa .al 0#4 31#5 2#8).unpredictable = some .registerList := by decide
theorem test_list_past_d15_refused : (Instr.fldmdIa .al 0#4 15#4 2#7).unpredictable = some .registerList := by decide
theorem test_empty_x_list_refused : (Instr.fstmxIa .al 0#4 0#4 0#7).unpredictable = some .registerList := by decide
theorem test_writeback_r15_refused : (Instr.fldmsIaWb .al 15#4 0#5 2#8).unpredictable = some .writebackR15 := by decide
theorem test_s31_pair_refused : (Instr.fmsrr .al 31#5 0#4 1#4).unpredictable = some .s31Pair := by decide
theorem test_arm_r15_refused : (Instr.fmrs .al 15#4 0#5 0#6).unpredictable = some .armR15 := by decide
theorem test_same_arm_register_refused : (Instr.fmrrs .al 2#4 2#4 30#5).unpredictable = some .sameArmReg := by decide

/-! ### Decoding -/

/-- Words E1 to E16 of the spec, each read and written (95_test_vectors.md Part C). -/
theorem test_decode_fmac_arithmetic :
    reads 0xEE450A2F#32 (.fmacs .al 1#5 10#5 31#5) ∧
    reads 0xEE093B0E#32 (.fmacd .al 3#4 9#4 14#4) ∧
    reads 0xEE072AEE#32 (.fnmacs .al 4#5 15#5 29#5) ∧
    reads 0xEE0B4B4D#32 (.fnmacd .al 4#4 11#4 13#4) ∧
    reads 0xEE5A3A2D#32 (.fmscs .al 7#5 20#5 27#5) ∧
    reads 0xEE1D5B0C#32 (.fmscd .al 5#4 13#4 12#4) ∧
    reads 0xEE1C5AEC#32 (.fnmscs .al 10#5 25#5 25#5) ∧
    reads 0xEE1F6B4B#32 (.fnmscd .al 6#4 15#4 11#4) ∧
    reads 0xEE6F6A2B#32 (.fmuls .al 13#5 30#5 23#5) ∧
    reads 0xEE217B0A#32 (.fmuld .al 7#4 1#4 10#4) ∧
    reads 0xEE218AEA#32 (.fnmuls .al 16#5 3#5 21#5) ∧
    reads 0xEE238B49#32 (.fnmuld .al 8#4 3#4 9#4) ∧
    reads 0xEE749A29#32 (.fadds .al 19#5 8#5 19#5) ∧
    reads 0xEE359B08#32 (.faddd .al 9#4 5#4 8#4) ∧
    reads 0xEE36BAE8#32 (.fsubs .al 22#5 13#5 17#5) ∧
    reads 0xEE37AB47#32 (.fsubd .al 10#4 7#4 7#4) := by
  decide

/-- Words E17 to E26 of the spec, each read and written (95_test_vectors.md Part C). -/
theorem test_decode_divide_and_copy :
    reads 0xEEC9CA27#32 (.fdivs .al 25#5 18#5 15#5) ∧
    reads 0xEE89BB06#32 (.fdivd .al 11#4 9#4 6#4) ∧
    reads 0xEEF01A6E#32 (.fcpys .al 3#5 29#5) ∧
    reads 0xEEB01B4E#32 (.fcpyd .al 1#4 14#4) ∧
    reads 0xEEB05AEC#32 (.fabss .al 10#5 25#5) ∧
    reads 0xEEB04BCC#32 (.fabsd .al 4#4 12#4) ∧
    reads 0xEEF18A6A#32 (.fnegs .al 17#5 21#5) ∧
    reads 0xEEB17B4A#32 (.fnegd .al 7#4 10#4) ∧
    reads 0xEEB1CAE8#32 (.fsqrts .al 24#5 17#5) ∧
    reads 0xEEB1ABC8#32 (.fsqrtd .al 10#4 8#4) := by
  decide

/-- Words E27 to E34 of the spec, each read and written (95_test_vectors.md Part C). -/
theorem test_decode_compare :
    reads 0xEEF4FA66#32 (.fcmps .al 31#5 13#5) ∧
    reads 0xEEB4DB46#32 (.fcmpd .al 13#4 6#4) ∧
    reads 0xEEB43AE4#32 (.fcmpes .al 6#5 9#5) ∧
    reads 0xEEB40BC4#32 (.fcmped .al 0#4 4#4) ∧
    reads 0xEEF54A40#32 (.fcmpzs .al 9#5 0#5) ∧
    reads 0xEEB56B40#32 (.fcmpzd .al 6#4 0#5) ∧
    reads 0xEEF5CAC0#32 (.fcmpezs .al 25#5 0#5) ∧
    reads 0xEEB5BBC0#32 (.fcmpezd .al 11#4 0#5) := by
  decide

/-- Words E35 to E48 of the spec, each read and written (95_test_vectors.md Part C). -/
theorem test_decode_conversion :
    reads 0xEEB75AE5#32 (.fcvtds .al 5#4 11#5) ∧
    reads 0xEEF75BC5#32 (.fcvtsd .al 11#5 5#4) ∧
    reads 0xEEB81A61#32 (.fuitos .al 2#5 3#5) ∧
    reads 0xEEB89B6F#32 (.fuitod .al 9#4 31#5) ∧
    reads 0xEEF8FAC0#32 (.fsitos .al 31#5 0#5) ∧
    reads 0xEEB8FBE0#32 (.fsitod .al 15#4 1#5) ∧
    reads 0xEEFC2A4A#32 (.ftouis .al 5#5 20#5) ∧
    reads 0xEEFC8B48#32 (.ftouid .al 17#5 8#4) ∧
    reads 0xEEBC3AEA#32 (.ftouizs .al 6#5 21#5) ∧
    reads 0xEEBC9BC9#32 (.ftouizd .al 18#5 9#4) ∧
    reads 0xEEFD3A4B#32 (.ftosis .al 7#5 22#5) ∧
    reads 0xEEFD9B4A#32 (.ftosid .al 19#5 10#4) ∧
    reads 0xEEBD4AEB#32 (.ftosizs .al 8#5 23#5) ∧
    reads 0xEEBDABCB#32 (.ftosizd .al 20#5 11#4) := by
  decide

/-- Words E49 to E50 of the spec, each read and written (95_test_vectors.md Part C). -/
theorem test_decode_load :
    reads 0xED534A04#32 (.flds .al false 3#4 9#5 4#8) ∧
    reads 0xED9C7B02#32 (.fldd .al true 12#4 7#4 2#8) := by
  decide

/-- Words E51 to E52 of the spec, each read and written (95_test_vectors.md Part C). -/
theorem test_decode_store :
    reads 0xED80FAFF#32 (.fsts .al true 0#4 30#5 255#8) ∧
    reads 0xED0DAB01#32 (.fstd .al false 13#4 10#4 1#8) := by
  decide

/-- Words E53 to E61 of the spec, each read and written (95_test_vectors.md Part C). -/
theorem test_decode_load_multiple :
    reads 0xECD41A05#32 (.fldmsIa .al 4#4 3#5 5#8) ∧
    reads 0xECB5AA0C#32 (.fldmsIaWb .al 5#4 20#5 12#8) ∧
    reads 0xED3D0A20#32 (.fldmsDbWb .al 13#4 0#5 32#8) ∧
    reads 0xEC942B06#32 (.fldmdIa .al 4#4 2#4 3#7) ∧
    reads 0xECB58B10#32 (.fldmdIaWb .al 5#4 8#4 8#7) ∧
    reads 0xED3D0B20#32 (.fldmdDbWb .al 13#4 0#4 16#7) ∧
    reads 0xEC942B07#32 (.fldmxIa .al 4#4 2#4 3#7) ∧
    reads 0xECB58B11#32 (.fldmxIaWb .al 5#4 8#4 8#7) ∧
    reads 0xED3D0B21#32 (.fldmxDbWb .al 13#4 0#4 16#7) := by
  decide

/-- Words E62 to E70 of the spec, each read and written (95_test_vectors.md Part C). -/
theorem test_decode_store_multiple :
    reads 0xECC41A05#32 (.fstmsIa .al 4#4 3#5 5#8) ∧
    reads 0xECA5AA0C#32 (.fstmsIaWb .al 5#4 20#5 12#8) ∧
    reads 0xED2D0A20#32 (.fstmsDbWb .al 13#4 0#5 32#8) ∧
    reads 0xEC842B06#32 (.fstmdIa .al 4#4 2#4 3#7) ∧
    reads 0xECA58B10#32 (.fstmdIaWb .al 5#4 8#4 8#7) ∧
    reads 0xED2D0B20#32 (.fstmdDbWb .al 13#4 0#4 16#7) ∧
    reads 0xEC842B07#32 (.fstmxIa .al 4#4 2#4 3#7) ∧
    reads 0xECA58B11#32 (.fstmxIaWb .al 5#4 8#4 8#7) ∧
    reads 0xED2D0B21#32 (.fstmxDbWb .al 13#4 0#4 16#7) := by
  decide

/-- Words E71 to E83 of the spec, each read and written (95_test_vectors.md Part C). -/
theorem test_decode_transfer :
    reads 0xEE084A90#32 (.fmsr .al 17#5 4#4 0#6) ∧
    reads 0xEE1F9A10#32 (.fmrs .al 9#4 30#5 0#6) ∧
    reads 0xEE0B1B10#32 (.fmdlr .al 11#4 1#4 0#6) ∧
    reads 0xEE2B2B10#32 (.fmdhr .al 11#4 2#4 0#6) ∧
    reads 0xEE147B10#32 (.fmrdl .al 7#4 4#4 0#6) ∧
    reads 0xEE348B10#32 (.fmrdh .al 8#4 4#4 0#6) ∧
    reads 0xEEE83A10#32 (.fmxr .al .fpexc 3#4 0#7) ∧
    reads 0xEEF75A10#32 (.fmrx .al 5#4 .mvfr0 0#7) ∧
    reads 0xEEF1FA10#32 (.fmstat .al 0#7) ∧
    reads 0xEC432B19#32 (.fmdrr .al 9#4 2#4 3#4) ∧
    reads 0xEC510B1F#32 (.fmrrd .al 0#4 1#4 15#4) ∧
    reads 0xEC4BAA32#32 (.fmsrr .al 5#5 10#4 11#4) ∧
    reads 0xEC576A1F#32 (.fmrrs .al 6#4 7#4 30#5) := by
  decide

/-! ### Single operations -/

/-- 95_test_vectors.md D.1. -/
theorem test_faddd_rounds_up :
    after (.faddd .al 0#4 1#4 2#4) (((ready 0x00400000#32).writeD 1#4 0x3FF0000000000000#64).writeD 2#4 0x3CA0000000000000#64) (fun t => (t.readD 0#4, t.fpscr)) =
      some (0x3FF0000000000001#64, 0x00400010#32) := by
  decide +kernel

/-- 95_test_vectors.md D.1. -/
theorem test_faddd_tie_overflows :
    after (.faddd .al 0#4 1#4 2#4) (((ready 0x00000000#32).writeD 1#4 0x7FEFFFFFFFFFFFFF#64).writeD 2#4 0x7C90000000000000#64) (fun t => (t.readD 0#4, t.fpscr)) =
      some (0x7FF0000000000000#64, 0x00000014#32) := by
  decide +kernel

/-- 95_test_vectors.md D.1. -/
theorem test_fadds_snan_default :
    after (.fadds .al 0#5 1#5 2#5) (((ready 0x03000000#32).writeS 1#5 0x7F800001#32).writeS 2#5 0x3F800000#32) (fun t => (t.readS 0#5, t.fpscr)) =
      some (0x7FC00000#32, 0x03000001#32) := by
  decide +kernel

/-- 95_test_vectors.md D.1. -/
theorem test_fadds_subnormal_bounces :
    after (.fadds .al 0#5 1#5 2#5) (((ready 0x00000000#32).writeS 1#5 0x7F800001#32).writeS 2#5 0x7FC00002#32) (fun t => t.fpexc) = some 0xC0000780#32 := by
  decide +kernel

/-- 95_test_vectors.md D.1. -/
theorem test_fsubs_flushed_zero_sign :
    after (.fsubs .al 0#5 1#5 2#5) (((ready 0x03800000#32).writeS 1#5 0x80000003#32).writeS 2#5 0x00000001#32) (fun t => (t.readS 0#5, t.fpscr)) =
      some (0x80000000#32, 0x03800080#32) := by
  decide +kernel

/-- 95_test_vectors.md D.1. -/
theorem test_fsubd_infinities :
    after (.fsubd .al 0#4 1#4 2#4) (((ready 0x00000000#32).writeD 1#4 0x7FF0000000000000#64).writeD 2#4 0x7FF0000000000000#64) (fun t => (t.readD 0#4, t.fpscr)) =
      some (0x7FF8000000000000#64, 0x00000001#32) := by
  decide +kernel

/-- 95_test_vectors.md D.2. -/
theorem test_fmuls_minus_zero :
    after (.fmuls .al 0#5 1#5 2#5) (((ready 0x03000000#32).writeS 1#5 0x80000000#32).writeS 2#5 0x40000000#32) (fun t => (t.readS 0#5, t.fpscr)) =
      some (0x80000000#32, 0x03000000#32) := by
  decide +kernel

/-- 95_test_vectors.md D.2. -/
theorem test_fmuls_underflow_bounces :
    after (.fmuls .al 0#5 1#5 2#5) (((ready 0x00000000#32).writeS 1#5 0x00800000#32).writeS 2#5 0x3F000000#32) (fun t => t.fpexc) = some 0xC0000708#32 := by
  decide +kernel

/-- 95_test_vectors.md D.2. -/
theorem test_fmuld_rounds_up :
    after (.fmuld .al 0#4 1#4 2#4) (((ready 0x00400000#32).writeD 1#4 0x3FF0000000000001#64).writeD 2#4 0x3FF0000000000001#64) (fun t => (t.readD 0#4, t.fpscr)) =
      some (0x3FF0000000000003#64, 0x00400010#32) := by
  decide +kernel

/-- 95_test_vectors.md D.2. -/
theorem test_fnmuls_default_nan :
    after (.fnmuls .al 0#5 1#5 2#5) (((ready 0x03000000#32).writeS 1#5 0x7F800000#32).writeS 2#5 0x00000000#32) (fun t => (t.readS 0#5, t.fpscr)) =
      some (0x7FC00000#32, 0x03000001#32) := by
  decide +kernel

/-- 95_test_vectors.md D.2. -/
theorem test_fnmuld_rounds_then_negates :
    after (.fnmuld .al 0#4 1#4 2#4) (((ready 0x00800000#32).writeD 1#4 0x3FF0000000000001#64).writeD 2#4 0x3FF0000000000001#64) (fun t => (t.readD 0#4, t.fpscr)) =
      some (0xBFF0000000000002#64, 0x00800010#32) := by
  decide +kernel

/-- 95_test_vectors.md D.3. -/
theorem test_fmacs_rounds_twice :
    after (.fmacs .al 0#5 1#5 2#5) ((((ready 0x00000000#32).writeS 0#5 0x3F800000#32).writeS 1#5 0x3F800001#32).writeS 2#5 0x3F800001#32) (fun t => (t.readS 0#5, t.fpscr)) =
      some (0x40000001#32, 0x00000010#32) := by
  decide +kernel

/-- 95_test_vectors.md D.3. -/
theorem test_fnmacs_zero_sum :
    after (.fnmacs .al 0#5 1#5 2#5) ((((ready 0x00800000#32).writeS 0#5 0x3F800000#32).writeS 1#5 0x3F800000#32).writeS 2#5 0x3F800000#32) (fun t => (t.readS 0#5, t.fpscr)) =
      some (0x80000000#32, 0x00800000#32) := by
  decide +kernel

/-- 95_test_vectors.md D.3. -/
theorem test_fmscs_zero_sum :
    after (.fmscs .al 0#5 1#5 2#5) ((((ready 0x00000000#32).writeS 0#5 0x3F800000#32).writeS 1#5 0x3F800000#32).writeS 2#5 0x3F800000#32) (fun t => (t.readS 0#5, t.fpscr)) =
      some (0x00000000#32, 0x00000000#32) := by
  decide +kernel

/-- 95_test_vectors.md D.3. -/
theorem test_fnmscs_minus_zero :
    after (.fnmscs .al 0#5 1#5 2#5) ((((ready 0x03000000#32).writeS 0#5 0x00000000#32).writeS 1#5 0x00000000#32).writeS 2#5 0x3F800000#32) (fun t => (t.readS 0#5, t.fpscr)) =
      some (0x80000000#32, 0x03000000#32) := by
  decide +kernel

/-- 95_test_vectors.md D.3. -/
theorem test_fmacd_signs :
    after (.fmacd .al 0#4 1#4 2#4) ((((ready 0x00000000#32).writeD 0#4 0x4000000000000000#64).writeD 1#4 0x4008000000000000#64).writeD 2#4 0x4010000000000000#64) (fun t => (t.readD 0#4, t.fpscr)) =
      some (0x402C000000000000#64, 0x00000000#32) := by
  decide +kernel

/-- 95_test_vectors.md D.3. -/
theorem test_fnmacd_signs :
    after (.fnmacd .al 0#4 1#4 2#4) ((((ready 0x00000000#32).writeD 0#4 0x4000000000000000#64).writeD 1#4 0x4008000000000000#64).writeD 2#4 0x4010000000000000#64) (fun t => (t.readD 0#4, t.fpscr)) =
      some (0xC024000000000000#64, 0x00000000#32) := by
  decide +kernel

/-- 95_test_vectors.md D.3. -/
theorem test_fmscd_signs :
    after (.fmscd .al 0#4 1#4 2#4) ((((ready 0x00000000#32).writeD 0#4 0x4000000000000000#64).writeD 1#4 0x4008000000000000#64).writeD 2#4 0x4010000000000000#64) (fun t => (t.readD 0#4, t.fpscr)) =
      some (0x4024000000000000#64, 0x00000000#32) := by
  decide +kernel

/-- 95_test_vectors.md D.3. -/
theorem test_fnmscd_signs :
    after (.fnmscd .al 0#4 1#4 2#4) ((((ready 0x00000000#32).writeD 0#4 0x4000000000000000#64).writeD 1#4 0x4008000000000000#64).writeD 2#4 0x4010000000000000#64) (fun t => (t.readD 0#4, t.fpscr)) =
      some (0xC02C000000000000#64, 0x00000000#32) := by
  decide +kernel

/-- 95_test_vectors.md D.3. -/
theorem test_fmacs_cancellation_bounces :
    after (.fmacs .al 0#5 1#5 2#5) ((((ready 0x00000000#32).writeS 0#5 0x0F800000#32).writeS 1#5 0xBF800000#32).writeS 2#5 0x0F000000#32) (fun t => t.fpexc) = some 0xC0000708#32 := by
  decide +kernel

/-- 95_test_vectors.md D.4. -/
theorem test_fdivd_third :
    after (.fdivd .al 0#4 1#4 2#4) (((ready 0x00000000#32).writeD 1#4 0x3FF0000000000000#64).writeD 2#4 0x4008000000000000#64) (fun t => (t.readD 0#4, t.fpscr)) =
      some (0x3FD5555555555555#64, 0x00000010#32) := by
  decide +kernel

/-- 95_test_vectors.md D.4. -/
theorem test_fdivs_flushed_divisor :
    after (.fdivs .al 0#5 1#5 2#5) (((ready 0x03000000#32).writeS 1#5 0xBF800000#32).writeS 2#5 0x80000001#32) (fun t => (t.readS 0#5, t.fpscr)) =
      some (0xFF800000#32, 0x03000082#32) := by
  decide +kernel

/-- 95_test_vectors.md D.5. -/
theorem test_fsqrtd_two :
    after (.fsqrtd .al 0#4 2#4) ((ready 0x00C00000#32).writeD 2#4 0x4000000000000000#64) (fun t => (t.readD 0#4, t.fpscr)) =
      some (0x3FF6A09E667F3BCC#64, 0x00C00010#32) := by
  decide +kernel

/-- 95_test_vectors.md D.5. -/
theorem test_fsqrts_pi :
    after (.fsqrts .al 0#5 2#5) ((ready 0x00000000#32).writeS 2#5 0x40490FDB#32) (fun t => (t.readS 0#5, t.fpscr)) =
      some (0x3FE2DFC5#32, 0x00000010#32) := by
  decide +kernel

/-- 95_test_vectors.md D.6. -/
theorem test_fcpys_snan :
    after (.fcpys .al 0#5 2#5) ((ready 0x03000100#32).writeS 2#5 0x7F800001#32) (fun t => (t.readS 0#5, t.fpscr)) =
      some (0x7F800001#32, 0x03000100#32) := by
  decide +kernel

/-- 95_test_vectors.md D.6. -/
theorem test_fabss_subnormal :
    after (.fabss .al 0#5 2#5) ((ready 0x03000000#32).writeS 2#5 0x80000001#32) (fun t => (t.readS 0#5, t.fpscr)) =
      some (0x00000001#32, 0x03000000#32) := by
  decide +kernel

/-- 95_test_vectors.md D.6. -/
theorem test_fnegs_snan :
    after (.fnegs .al 0#5 2#5) ((ready 0x00000000#32).writeS 2#5 0x7F800001#32) (fun t => (t.readS 0#5, t.fpscr)) =
      some (0xFF800001#32, 0x00000000#32) := by
  decide +kernel

/-- 95_test_vectors.md D.6. -/
theorem test_fcpyd_subnormal :
    after (.fcpyd .al 0#4 2#4) ((ready 0x03000000#32).writeD 2#4 0x0000000000000001#64) (fun t => (t.readD 0#4, t.fpscr)) =
      some (0x0000000000000001#64, 0x03000000#32) := by
  decide +kernel

/-- 95_test_vectors.md D.6. -/
theorem test_fabsd_infinity :
    after (.fabsd .al 0#4 2#4) ((ready 0x00000000#32).writeD 2#4 0xFFF0000000000000#64) (fun t => (t.readD 0#4, t.fpscr)) =
      some (0x7FF0000000000000#64, 0x00000000#32) := by
  decide +kernel

/-- 95_test_vectors.md D.6. -/
theorem test_fnegd_one :
    after (.fnegd .al 0#4 2#4) ((ready 0x00C00000#32).writeD 2#4 0x3FF0000000000000#64) (fun t => (t.readD 0#4, t.fpscr)) =
      some (0xBFF0000000000000#64, 0x00C00000#32) := by
  decide +kernel

/-- 95_test_vectors.md D.7. -/
theorem test_fcmps_less :
    after (.fcmps .al 0#5 2#5) (((ready 0x00000000#32).writeS 0#5 0xBF800000#32).writeS 2#5 0x80000000#32) (fun t => t.fpscr) = some 0x80000000#32 := by
  decide +kernel

/-- 95_test_vectors.md D.7. -/
theorem test_fcmpd_greater :
    after (.fcmpd .al 0#4 2#4) (((ready 0x00000000#32).writeD 0#4 0x7FF0000000000000#64).writeD 2#4 0x7FEFFFFFFFFFFFFF#64) (fun t => t.fpscr) = some 0x20000000#32 := by
  decide +kernel

/-- 95_test_vectors.md D.7. -/
theorem test_fcmpes_nan_bounces :
    after (.fcmpes .al 0#5 2#5) (((ready 0x00000000#32).writeS 0#5 0x3F800000#32).writeS 2#5 0x7FC00000#32) (fun t => t.fpexc) = some 0xC0000780#32 := by
  decide +kernel

/-- 95_test_vectors.md D.7. -/
theorem test_fcmped_unordered :
    after (.fcmped .al 0#4 2#4) (((ready 0x03000000#32).writeD 0#4 0x3FF0000000000000#64).writeD 2#4 0xFFF8000000000000#64) (fun t => t.fpscr) = some 0x33000001#32 := by
  decide +kernel

/-- 95_test_vectors.md D.7. -/
theorem test_fcmpzs_replaces_flags :
    after (.fcmpzs .al 0#5 0#5) ((ready 0x90000000#32).writeS 0#5 0x7F800000#32) (fun t => t.fpscr) = some 0x20000000#32 := by
  decide +kernel

/-- 95_test_vectors.md D.7. -/
theorem test_fcmpzd_subnormal_bounces :
    after (.fcmpzd .al 0#4 0#5) ((ready 0x00000000#32).writeD 0#4 0x8000000000000001#64) (fun t => t.fpexc) = some 0xC0000780#32 := by
  decide +kernel

/-- 95_test_vectors.md D.7. -/
theorem test_fcmpezs_unordered :
    after (.fcmpezs .al 0#5 0#5) ((ready 0x03000000#32).writeS 0#5 0xFFC00000#32) (fun t => t.fpscr) = some 0x33000001#32 := by
  decide +kernel

/-- 95_test_vectors.md D.7. -/
theorem test_fcmpezd_less :
    after (.fcmpezd .al 0#4 0#5) ((ready 0x03000000#32).writeD 0#4 0xC000000000000000#64) (fun t => t.fpscr) = some 0x83000000#32 := by
  decide +kernel

/-- 95_test_vectors.md D.8. -/
theorem test_ftosis_minus_infinity_mode :
    after (.ftosis .al 0#5 4#5) ((ready 0x00800000#32).writeS 4#5 0x3FC00000#32) (fun t => (t.readS 0#5, t.fpscr)) =
      some (0x00000001#32, 0x00800010#32) := by
  decide +kernel

/-- 95_test_vectors.md D.8. -/
theorem test_ftosizs_ignores_mode :
    after (.ftosizs .al 0#5 4#5) ((ready 0x00400000#32).writeS 4#5 0x3FC00000#32) (fun t => (t.readS 0#5, t.fpscr)) =
      some (0x00000001#32, 0x00400010#32) := by
  decide +kernel

/-- 95_test_vectors.md D.8. -/
theorem test_ftouis_nan :
    after (.ftouis .al 0#5 4#5) ((ready 0x03000000#32).writeS 4#5 0x7FC00000#32) (fun t => (t.readS 0#5, t.fpscr)) =
      some (0x00000000#32, 0x03000001#32) := by
  decide +kernel

/-- 95_test_vectors.md D.8. -/
theorem test_ftouid_flushed :
    after (.ftouid .al 0#5 2#4) ((ready 0x03400000#32).writeD 2#4 0x0000000000000001#64) (fun t => (t.readS 0#5, t.fpscr)) =
      some (0x00000000#32, 0x03400080#32) := by
  decide +kernel

/-- 95_test_vectors.md D.8. -/
theorem test_ftosizd_below_limit :
    after (.ftosizd .al 0#5 2#4) ((ready 0x03000100#32).writeD 2#4 0x41DFFFFFFFE00000#64) (fun t => (t.readS 0#5, t.fpscr)) =
      some (0x7FFFFFFF#32, 0x03000110#32) := by
  decide +kernel

/-- 95_test_vectors.md D.8. -/
theorem test_fuitos_all_ones :
    after (.fuitos .al 0#5 4#5) ((ready 0x00800000#32).writeS 4#5 0xFFFFFFFF#32) (fun t => (t.readS 0#5, t.fpscr)) =
      some (0x4F7FFFFF#32, 0x00800010#32) := by
  decide +kernel

/-- 95_test_vectors.md D.8. -/
theorem test_fsitos_rounds :
    after (.fsitos .al 0#5 4#5) ((ready 0x00400000#32).writeS 4#5 0x80000001#32) (fun t => (t.readS 0#5, t.fpscr)) =
      some (0xCEFFFFFF#32, 0x00400010#32) := by
  decide +kernel

/-- 95_test_vectors.md D.8. -/
theorem test_fsitod_exact :
    after (.fsitod .al 0#4 4#5) ((ready 0x00000000#32).writeS 4#5 0x80000001#32) (fun t => (t.readD 0#4, t.fpscr)) =
      some (0xC1DFFFFFFFC00000#64, 0x00000000#32) := by
  decide +kernel

/-- 95_test_vectors.md D.8. -/
theorem test_fuitod_exact :
    after (.fuitod .al 0#4 4#5) ((ready 0x00000000#32).writeS 4#5 0x80000001#32) (fun t => (t.readD 0#4, t.fpscr)) =
      some (0x41E0000000200000#64, 0x00000000#32) := by
  decide +kernel

/-- 95_test_vectors.md D.8. -/
theorem test_fcvtds_exact :
    after (.fcvtds .al 0#4 4#5) ((ready 0x00000000#32).writeS 4#5 0xC0490FDB#32) (fun t => (t.readD 0#4, t.fpscr)) =
      some (0xC00921FB60000000#64, 0x00000000#32) := by
  decide +kernel

/-- 95_test_vectors.md D.8. -/
theorem test_fcvtsd_truncates :
    after (.fcvtsd .al 0#5 2#4) ((ready 0x00C00000#32).writeD 2#4 0x400921FB54442D18#64) (fun t => (t.readS 0#5, t.fpscr)) =
      some (0x40490FDA#32, 0x00C00010#32) := by
  decide +kernel

/-- 95_test_vectors.md D.8. -/
theorem test_ftosid_threshold_bounces :
    after (.ftosid .al 0#5 2#4) ((ready 0x03000100#32).writeD 2#4 0x41DFFFFFFFE00000#64) (fun t => t.fpexc) =
      some 0xC0000701#32 := by
  decide +kernel

/-- 95_test_vectors.md D.8, the row of FTOUIS. -/
theorem test_ftouizs_minus_zero :
    after (.ftouizs .al 0#5 4#5) ((ready 0x03000000#32).writeS 4#5 0x80000000#32) (fun t => (t.readS 0#5, t.fpscr)) =
      some (0x00000000#32, 0x03000000#32) := by
  decide +kernel

/-- 95_test_vectors.md R279, R280. -/
theorem test_ftouizd_one_and_a_half :
    after (.ftouizd .al 0#5 2#4) ((ready 0x00400000#32).writeD 2#4 0x3FF8000000000000#64) (fun t => (t.readS 0#5, t.fpscr)) =
      some (0x00000001#32, 0x00400010#32) := by
  decide +kernel

/-! ### Short vectors -/

/-- Iterations wrap inside their own banks: S14, S15, S8, S9 (95_test_vectors.md D.9). -/
theorem test_vector_wraps_in_bank :
    after (.fadds .al 14#5 22#5 30#5)
        ((((ready 0x03030000#32).writeS 16#5 0x3F800000#32).writeS 24#5 0x3F800000#32).writeS 22#5 0x40000000#32)
        (fun t => (t.readS 14#5, t.readS 15#5, t.readS 8#5, t.readS 9#5)) =
      some (0x40000000#32, 0x00000000#32, 0x40000000#32, 0x00000000#32) := by
  decide +kernel

/-- Overlapping vectors that are not identical (95_test_vectors.md D.9). -/
theorem test_overlap_refused :
    refusalOf (exec (.fadds .al 8#5 9#5 16#5) (ready 0x03030000#32)) = some .vectorOverlap := by
  decide +kernel

/-- A double-precision vector of five (95_test_vectors.md D.9). -/
theorem test_wrap_refused :
    refusalOf (exec (.faddd .al 4#4 8#4 12#4) (ready 0x03040000#32)) = some .vectorWraps := by
  decide +kernel

/-- A bounce inside a strided vector (95_test_vectors.md D.9): the word of iteration 2, one iteration remaining. -/
theorem test_bounce_inside_vector :
    after (.fadds .al 8#5 16#5 24#5)
        ((((((((ready 0x00330000#32).writeS 16#5 0x3F800000#32).writeS 18#5 0x3F800000#32).writeS 20#5 0x00000001#32).writeS
          22#5 0x3F800000#32).writeS 24#5 0x3F800000#32).writeS 26#5 0x3F800000#32).writeS 28#5 0x3F800000#32)
        (fun t => (t.readS 8#5, t.readS 10#5, t.readS 12#5, t.fpinst, t.fpexc &&& 0x80000780#32)) =
      some (0x40000000#32, 0x40000000#32, 0x00000000#32, 0xEE3A6A0E#32, 0x80000080#32) := by
  decide +kernel

/-- With IXE = 1 a compare of a NaN with DN = 0 sets INV besides EX and VECITR (60_exceptions.md R412, R416). -/
theorem test_compare_ixe_collects_inv :
    after (.fcmps .al 1#5 2#5) ((ready 0x00001000#32).writeS 1#5 0x7FC00001#32) (fun t => (t.fpexc, t.draws)) =
      some (0xC0000780#32, 0) := by
  decide +kernel

/-- A multiply-accumulate of a NaN in Fd (DN = 1) and a subnormal Fn (FZ = 0) bounces as an Input exception with the
underflow threshold hit: UFC is optional (60_exceptions.md R416 (c)). -/
theorem test_input_leaves_threshold_flag_open :
    let k := (iterH (.mac false false) .single 0x02000000#32 ⟨0x7FC00000#64, 0x00000001#64, 0x20000000#64⟩).1
    (k.input, k.unf, k.mayUnder) = (true, false, true) := by
  decide +kernel

/-- At level A an enabled overflow traps with FZ = 1 too, with OFC and the intermediate result: 2^254 times 2^-192
(60_exceptions.md R407, 40_cdp_common.md R205). -/
theorem test_overflow_traps_with_fz :
    iterA (.mul false) .single 0x01000400#32 ⟨0#64, 0x7F000000#64, 0x7F000000#64⟩ =
      .trap .overflow (some 0x5E800000#64) { ofc := true } := by
  decide +kernel

/-- An Inexact trap leaves the destination unchanged (60_exceptions.md R446). -/
theorem test_inexact_trap_writes_nothing :
    iterA .div .single 0x00001000#32 ⟨0#64, 0x3F800000#64, 0x40400000#64⟩ = .trap .inexact none { ixc := true } := by
  decide +kernel

/-- The product of a multiply-accumulate is an iteration of its own: its overflow traps before the sum
(41_fmac_arith.md R226). -/
theorem test_mac_product_traps_first :
    iterA (.mac false false) .single 0x02000400#32 ⟨0x3F800000#64, 0x7F000000#64, 0x7F000000#64⟩ =
      .trap .overflow (some 0x5E800000#64) { ofc := true } := by
  decide +kernel

/-- With a NaN in Fd and DN = 1 the hardware completes, and level A agrees (40_cdp_common.md R208). -/
theorem test_mac_nan_accumulator_agrees :
    iterA (.mac false false) .single 0x02000400#32 ⟨0x7FC00001#64, 0x7F000000#64, 0x7F000000#64⟩ =
      .done (.reg 0x7FC00000#64) {} := by
  decide +kernel

/-- With DN = 1 a NaN operand has no overflow threshold: the addition completes (41_fmac_arith.md R221). -/
theorem test_default_nan_ignores_thresholds :
    after (.fadds .al 0#5 1#5 2#5) ((ready 0x02000400#32).writeS 1#5 0x7FC00001#32)
      (fun t => (t.readS 0#5, t.fpexc, t.draws)) = some (0x7FC00000#32, 0x40000000#32, 0) := by
  decide +kernel

/-! ### Loads and stores (95_test_vectors.md D.10) -/

/-- The five words of D.10 at 0x1000, with R1 = 0x1000. -/
def loaded : State :=
  (((((ready 0x00000000#32).placeWord 0x1000 0x11111111#32).placeWord 0x1004 0x22222222#32).placeWord 0x1008
    0x33333333#32).placeWord 0x100C 0x44444444#32).writeArm 1#4 0x00001000#32

theorem test_flds : after (.flds .al true 1#4 5#5 2#8) loaded (fun t => t.readS 5#5) = some 0x33333333#32 := by
  decide +kernel
theorem test_fldd_big_endian :
    after (.fldd .al true 1#4 3#4 0#8) { loaded with bigEndian := true } (fun t => t.readD 3#4) =
      some 0x1111111122222222#64 := by
  decide +kernel
theorem test_fldmd_writeback :
    after (.fldmdIaWb .al 1#4 4#4 2#7) loaded (fun t => (t.readD 4#4, t.readD 5#4, t.readArm 1#4)) =
      some (0x2222222211111111#64, 0x4444444433333333#64, 0x00001010#32) := by
  decide +kernel
theorem test_fldms :
    after (.fldmsIa .al 1#4 0#5 4#8) loaded (fun t => (t.readS 0#5, t.readS 3#5, t.readArm 1#4)) =
      some (0x11111111#32, 0x44444444#32, 0x00001000#32) := by
  decide +kernel
theorem test_fldmx :
    after (.fldmxIaWb .al 1#4 0#4 2#7) loaded (fun t => (t.readD 1#4, t.readArm 1#4)) =
      some (0x4444444433333333#64, 0x00001014#32) := by
  decide +kernel
theorem test_fstms_decrement :
    after (.fstmsDbWb .al 1#4 4#5 2#8)
        (((loaded.writeS 4#5 0xAAAAAAAA#32).writeS 5#5 0xBBBBBBBB#32).writeArm 1#4 0x00001010#32)
        (fun t => (t.readWord 0x1004, t.readWord 0x1008, t.readWord 0x100C, t.readArm 1#4)) =
      some (0x22222222#32, 0xAAAAAAAA#32, 0xBBBBBBBB#32, 0x00001008#32) := by
  decide +kernel
theorem test_fstmd_little_endian :
    after (.fstmdIa .al 1#4 14#4 2#7)
        ((loaded.writeD 14#4 0x3FF0000000000000#64).writeD 15#4 0xC000000000000001#64)
        (fun t => (t.readWord 0x1000, t.readWord 0x1004, t.readWord 0x1008, t.readWord 0x100C)) =
      some (0x00000000#32, 0x3FF00000#32, 0x00000001#32, 0xC0000000#32) := by
  decide +kernel
theorem test_fsts_negative_offset :
    after (.fsts .al false 0#4 31#5 255#8) ((loaded.writeArm 0#4 0x000013FC#32).writeS 31#5 0xCAFEF00D#32)
        (fun t => (t.readWord 0x1000, t.readWord 0x1004)) = some (0xCAFEF00D#32, 0x22222222#32) := by
  decide +kernel
theorem test_fstd_misaligned :
    refusalOf (exec (.fstd .al false 1#4 0#4 1#8) (loaded.writeArm 1#4 0x00001002#32)) = some .misaligned := by
  decide +kernel

/-! ### Register transfers (95_test_vectors.md D.11) -/

theorem test_fmdrr_halves :
    after (.fmdrr .al 0#4 0#4 1#4) (((ready 0#32).writeArm 0#4 0xDEADBEEF#32).writeArm 1#4 0x7FF00000#32)
      (fun t => t.readD 0#4) = some 0x7FF00000DEADBEEF#64 := by
  decide +kernel
theorem test_fmrrs_odd_pair :
    after (.fmrrs .al 6#4 7#4 5#5) (((ready 0#32).writeS 5#5 0x55555555#32).writeS 6#5 0x66666666#32)
      (fun t => (t.readArm 6#4, t.readArm 7#4)) = some (0x55555555#32, 0x66666666#32) := by
  decide +kernel
theorem test_fmxr_fpscr_all_bits :
    after (.fmxr .al .fpscr 0#4 0#7) ((ready 0x0000001F#32).writeArm 0#4 0xF3F79F9F#32) (fun t => t.fpscr) =
      some 0xF3F79F9F#32 := by
  decide +kernel
theorem test_fmxr_fpexc_sbz :
    refusalOf (exec (.fmxr .al .fpexc 0#4 0#7) ((ready 0#32).writeArm 0#4 0x40000002#32)) = some .sbzWrite := by
  decide +kernel
theorem test_fmrx_fpsid :
    after (.fmrx .al 0#4 .fpsid 0#7) (ready 0#32) (fun t => t.readArm 0#4) = some 0x410120B3#32 := by
  decide +kernel
theorem test_fmstat :
    after (.fmstat .al 0#7) ((ready 0x60000010#32).setCpsr 0x900001D3#32) (fun t => t.cpsr) = some 0x600001D3#32 := by
  decide +kernel

/-! ### The step from reset -/

/-- Right after reset the coprocessor is denied: the first instruction takes the Undefined Instruction exception
(95_test_vectors.md D.12 row 4). -/
theorem test_first_step_from_reset :
    look (step (State.reset.withFetchWord 32 0xEE300A81)) (fun t => (t.pc, t.r14Und, Cpsr.mode t.cpsr)) =
      some (0x00000004#32, 0x00000004#32, Mode.undefined) := by
  decide +kernel

/-- The first step of an enabled coprocessor runs the word placed at the program counter. -/
theorem test_first_step_enabled :
    look (step ((ready 0x03000000#32).withFetchWord 32 0xEE300A81)) (fun t => (t.pc, t.readS 0#5)) =
      some (0x00008004#32, 0x00000000#32) := by
  decide +kernel

theorem test_decode_table_word : decodeTableWord 32 0xEE300A81 = some (.fadds .al 0#5 1#5 2#5) := by decide

/-! ### Witnesses: for every statement with hypotheses a state and operands that meet them all -/

/-- RunFast mode. -/
def runFast : State := ready 0x03000000#32

/-- The exceptional state with the window closed. -/
def exceptional : State := { ready 0#32 with fpexc := 0xC0000780#32, fpinst := 0xEE300A81#32 }

/-- The open window of `FADDS S0, S1, S2`, the pretrigger slot free. -/
def windowed : State := { exceptional with win := .opened 0x00000001#32 0x00000006#32 true }

/-- User mode. -/
def user (s : State) : State := { s with cpsr := 0x000001D0#32 }

/-- A state that fetches `w` next. -/
def fetching (w : Word) : State := (ready 0#32).placeWord 0x8000 w

theorem witness_DecodeOfEncode : (Instr.fldmxDbWb .al 13#4 0#4 16#7).WellFormed := by decide
theorem witness_EncodeOfDecode : decode 0xEEF75BC5#32 = .instr (.fcvtsd .al 11#5 5#4) := by decide
theorem witness_StepRunsDecodedInstruction :
    (fetching 0xEE300A81#32).fetchAddr ∉ (fetching 0xEE300A81#32).stored ∧
      decode ((fetching 0xEE300A81#32).readWord (fetching 0xEE300A81#32).fetchAddr) = .instr (.fadds .al 0#5 1#5 2#5) := by
  decide +kernel
theorem witness_UndefinedWordTraps :
    decode ((fetching 0xEE300B20#32).readWord (fetching 0xEE300B20#32).fetchAddr) = .undefined (some .al) .oddDouble ∧
      (fetching 0xEE300B20#32).fetchAddr ∉ (fetching 0xEE300B20#32).stored := by
  decide +kernel
theorem witness_UndefinedWordTraps_unconditional :
    let s := fetching 0xFE300A81#32
    s.fetchAddr ∉ s.stored ∧ field (s.readWord s.fetchAddr) 28 4 = 0b1111#4 ∧
      field (s.readWord s.fetchAddr) 9 3 = 0b101#3 ∧
      field (s.readWord s.fetchAddr) 24 4 ∈ [0b1100#4, 0b1101#4, 0b1110#4] := by
  decide +kernel
theorem witness_UndefinedWordTraps_other :
    let s := fetching 0xE1A00000#32
    s.fetchAddr ∉ s.stored ∧ field (s.readWord s.fetchAddr) 9 3 ≠ 0b101#3 := by
  decide +kernel
theorem witness_UndefinedWordTraps_stored :
    ((ready 0#32).writeWord 0x8000 0#32).fetchAddr ∈ ((ready 0#32).writeWord 0x8000 0#32).stored := by
  decide +kernel
theorem witness_CancelledInstructionOnlyAdvances :
    condPassed (Instr.fadds .eq 0#5 1#5 2#5).cond (ready 0#32).cpsr = false := by decide +kernel
theorem witness_InaccessibleInstructionTraps_denied :
    condPassed (Instr.fmstat .al 0#7).cond State.reset.cpsr = true ∧ State.reset.cpAccess = .denied := by
  decide +kernel
theorem witness_InaccessibleInstructionTraps_privileged :
    let s := user { ready 0#32 with cpAccess := .privilegedOnly }
    s.cpAccess = .privilegedOnly ∧ Cpsr.mode s.cpsr = Mode.user := by
  decide +kernel
theorem witness_InaccessibleInstructionTraps_disabled :
    let s := user { ready 0#32 with fpexc := 0#32 }
    Fpexc.en s.fpexc = false ∧ Cpsr.mode s.cpsr = Mode.user ∧
      accessOf (.fmstat .al 0#7) ∈ [Access.vfp, .sys .fpscr] := by
  decide +kernel
theorem witness_InaccessibleInstructionTraps_user :
    Cpsr.mode (user (ready 0#32)).cpsr = Mode.user ∧
      accessOf (.fmxr .al .fpexc 0#4 0#7) ∈ [Access.sys .fpexc, .sys .fpinst, .sys .fpinst2] := by
  decide +kernel
theorem witness_UnpredictableFormIsRefused :
    (ready 0#32).accessible (accessOf (.fldmsIa .al 0#4 0#5 33#8)) = true ∧
      (Instr.fldmsIa .al 0#4 0#5 33#8).unpredictable = some .registerList := by
  decide +kernel
theorem witness_UnpredictableFormIsRefused_stride :
    (Instr.fcmps .al 0#5 1#5).WellFormed ∧ cdpOf (.fcmps .al 0#5 1#5) = some ⟨.cmp false, .single, 0#5, 0#5, 1#5⟩ ∧
      Fpscr.stride (ready 0x00300000#32).fpscr = 0b11#2 ∧ Fpscr.len (ready 0x00300000#32).fpscr = 0 ∧
      Fpscr.stride (ready 0x00100000#32).fpscr ∈ [0b01#2, 0b10#2] ∧ (ready 0x00300000#32).NoClosedTrigger := by
  decide +kernel
theorem witness_UnpredictableFormIsRefused_trigger :
    let s := { exceptional with fpscr := 0x00300000#32 }
    s.accessible (accessOf (.fcmps .al 0#5 1#5)) = true ∧ s.level = .hardware ∧ ¬ s.NoClosedTrigger ∧
      Fpscr.stride s.fpscr = 0b11#2 ∧ Fpscr.len s.fpscr = 0 := by
  decide +kernel
theorem witness_VectorThatWrapsIsRefused :
    let s := ready 0x00040000#32
    let c : Cdp := ⟨.add false, .double, 4#5, 8#5, 12#5⟩
    cdpOf (.faddd .al 4#4 8#4 12#4) = some c ∧ s.accessible .vfp = true ∧ s.NoClosedTrigger ∧ legalLenStride s.fpscr = true ∧
      c.op.canVector = true ∧ Fpscr.len s.fpscr ≠ 0 ∧ inBank0 c.p c.d = false := by
  decide +kernel
theorem witness_OverlappingVectorsAreRefused_fn :
    let s := ready 0x00030000#32
    let c : Cdp := ⟨.add false, .single, 8#5, 9#5, 16#5⟩
    cdpOf (.fadds .al 8#5 9#5 16#5) = some c ∧ (Instr.fadds .al 8#5 9#5 16#5).WellFormed ∧ s.accessible .vfp = true ∧
      c.VectorFits s.fpscr ∧ c.SteppingSource 9#5 ∧ 9#5 ≠ c.d ∧ c.SharesVector s.fpscr 9#5 :=
  ⟨rfl, by decide +kernel, by decide +kernel, by decide +kernel, .inl ⟨rfl, rfl⟩, by decide,
    1, 0, by decide +kernel⟩
theorem witness_OverlappingVectorsAreRefused_fm :
    let s := { exceptional with fpscr := 0x00010000#32 }
    let c : Cdp := ⟨.sqrt, .double, 4#5, 0#5, 7#5⟩
    cdpOf (.fsqrtd .al 4#4 7#4) = some c ∧ (Instr.fsqrtd .al 4#4 7#4).WellFormed ∧ s.accessible .vfp = true ∧
      c.VectorFits s.fpscr ∧ c.SteppingSource 7#5 ∧ 7#5 ≠ c.d ∧ c.SharesVector s.fpscr 7#5 :=
  ⟨rfl, by decide +kernel, by decide +kernel, by decide +kernel, .inr ⟨by decide, rfl⟩, by decide,
    0, 1, by decide +kernel⟩
theorem witness_OverlappingVectorsAreRefused_allowed :
    let s := ready 0x00030000#32
    let c : Cdp := ⟨.copy .abs, .single, 8#5, 0#5, 8#5⟩
    cdpOf (.fabss .al 8#5 8#5) = some c ∧ c.VectorFits s.fpscr ∧ s.exceptional = false ∧
      ∀ r, c.SteppingSource r → r = c.d ∨ ¬ c.SharesVector s.fpscr r :=
  ⟨rfl, by decide +kernel, by decide +kernel, fun _ h => h.elim (fun h => by cases h.1) (fun h => .inl h.2)⟩
/-- FABSS of an overlapping Fm that is not Fd (40_cdp_common.md R169). -/
theorem test_overlap_with_fm_refused :
    refusalOf (exec (.fabss .al 8#5 9#5) (ready 0x03030000#32)) = some .vectorOverlap := by
  decide +kernel
theorem witness_VectorElementsAreIndependent :
    let s := ready 0x03030000#32
    let c : Cdp := ⟨.mac false false, .single, 8#5, 16#5, 24#5⟩
    s.Runs (.fmacs .al 8#5 16#5 24#5) c ∧ c.op.canVector = true ∧ (c.shape s.fpscr).iters = 4 ∧
      ∀ k : Fin 4, (iterH c.op c.p s.fpscr (s.source (c.at (c.shape s.fpscr) s.fpscr k))).1.clear = true := by
  decide +kernel
theorem witness_AddSubtractInRunFast :
    runFast.Runs (.fsubd .al 1#4 2#4 3#4) ⟨.add true, .double, 1#5, 2#5, 3#5⟩ ∧
      Cdp.Scalar ⟨.add true, .double, 1#5, 2#5, 3#5⟩ runFast.fpscr ∧ Fpscr.runFast runFast.fpscr = true := by
  decide +kernel
theorem witness_MultiplyInRunFast :
    runFast.Runs (.fnmuls .al 1#5 2#5 3#5) ⟨.mul true, .single, 1#5, 2#5, 3#5⟩ ∧
      Cdp.Scalar ⟨.mul true, .single, 1#5, 2#5, 3#5⟩ runFast.fpscr ∧ Fpscr.runFast runFast.fpscr = true := by
  decide +kernel
theorem witness_MultiplyAccumulateInRunFast :
    runFast.Runs (.fnmscd .al 1#4 2#4 3#4) ⟨.mac true true, .double, 1#5, 2#5, 3#5⟩ ∧
      Cdp.Scalar ⟨.mac true true, .double, 1#5, 2#5, 3#5⟩ runFast.fpscr ∧ Fpscr.runFast runFast.fpscr = true := by
  decide +kernel
theorem witness_DivideAndSquareRootInRunFast :
    runFast.Runs (.fdivs .al 1#5 2#5 3#5) ⟨.div, .single, 1#5, 2#5, 3#5⟩ ∧
      Cdp.Scalar ⟨.div, .single, 1#5, 2#5, 3#5⟩ runFast.fpscr ∧
      runFast.Runs (.fsqrtd .al 1#4 3#4) ⟨.sqrt, .double, 1#5, 0#5, 3#5⟩ ∧
      Cdp.Scalar ⟨.sqrt, .double, 1#5, 0#5, 3#5⟩ runFast.fpscr ∧ Fpscr.runFast runFast.fpscr = true := by
  decide +kernel
theorem witness_CopiesMoveBits :
    (ready 0x00030000#32).Ready .al ∧ Fpscr.ixe (ready 0x00030000#32).fpscr = false ∧
      legalLenStride (ready 0x00030000#32).fpscr = true ∧ (7#5).toNat < 8 ∧ (3#4).toNat < 4 := by
  decide +kernel
theorem witness_ComparesInRunFast :
    runFast.Runs (.fcmpes .al 1#5 2#5) ⟨.cmp true, .single, 1#5, 0#5, 2#5⟩ ∧
      runFast.Runs (.fcmpzd .al 1#4 0#5) ⟨.cmpz false, .double, 1#5, 0#5, 0#5⟩ ∧
      Fpscr.runFast runFast.fpscr = true := by
  decide +kernel
theorem witness_CompareSetsFlags :
    runFast.Runs (.fcmpd .al 1#4 2#4) ⟨.cmp false, .double, 1#5, 0#5, 2#5⟩ ∧ Fpscr.runFast runFast.fpscr = true ∧
      (runFast.readFp .double 1#5).isSub .double = false ∧ (runFast.readFp .double 2#5).isSub .double = false := by
  decide +kernel
theorem witness_PrecisionConversionsInRunFast :
    runFast.Runs (.fcvtsd .al 9#5 2#4) ⟨.cvt, .double, 9#5, 0#5, 2#5⟩ ∧ Fpscr.runFast runFast.fpscr = true := by
  decide +kernel
theorem witness_IntegerToFloatConversions :
    (ready 0#32).Runs (.fsitod .al 9#4 31#5) ⟨.fromInt true, .double, 9#5, 0#5, 31#5⟩ ∧
      Fpscr.ixe (ready 0#32).fpscr = false := by
  decide +kernel
theorem witness_FloatToIntegerInRunFast :
    runFast.Runs (.ftouizd .al 9#5 2#4) ⟨.toInt false true, .double, 9#5, 0#5, 2#5⟩ ∧
      Fpscr.runFast runFast.fpscr = true := by
  decide +kernel
theorem witness_RunFastNeverBounces :
    runFast.Runs (.fadds .al 1#5 2#5 3#5) ⟨.add false, .single, 1#5, 2#5, 3#5⟩ ∧ bitAt runFast.fpscr 24 = true ∧
      bitAt runFast.fpscr 25 = true ∧ field runFast.fpscr 8 5 = 0#5 ∧ bitAt runFast.fpscr 15 = false := by
  decide +kernel
theorem witness_RunFastNeverBounces_illegal :
    let s := runFast.placeWord 0x8000 0xEE300B20#32
    Fpscr.runFast s.fpscr = true ∧ s.fetchAddr ∉ s.stored ∧
      decode (s.readWord s.fetchAddr) = .undefined (some .al) .oddDouble := by
  decide +kernel
theorem witness_ArithmeticFrame :
    (ready 0x00001F00#32).Runs (.fcmpzs .al 1#5 0#5) ⟨.cmpz false, .single, 1#5, 0#5, 0#5⟩ := by decide +kernel
theorem witness_InputExceptionBounces_nan :
    let s := (ready 0x01000000#32).writeS 2#5 0x7FC00000#32
    let c : Cdp := ⟨.add false, .single, 1#5, 2#5, 3#5⟩
    s.Runs (.fadds .al 1#5 2#5 3#5) c ∧ c.Scalar s.fpscr ∧ c.op.isCopy = false ∧
      Fpscr.dn s.fpscr = false ∧ ∃ a ∈ s.operands c, a.isNan c.p = true := by
  decide +kernel
theorem witness_InputExceptionBounces_subnormal :
    let s := (ready 0x02000000#32).writeS 2#5 0x80000001#32
    let c : Cdp := ⟨.add false, .single, 1#5, 2#5, 3#5⟩
    s.Runs (.fadds .al 1#5 2#5 3#5) c ∧ c.Scalar s.fpscr ∧ Fpscr.fz s.fpscr = false ∧
      ∃ a ∈ s.operands c, a.isSub c.p = true := by
  decide +kernel
theorem witness_InexactEnabledBounces :
    let s := ready 0x00001000#32
    let c : Cdp := ⟨.fromInt true, .single, 1#5, 0#5, 3#5⟩
    s.Runs (.fsitos .al 1#5 3#5) c ∧ c.Scalar s.fpscr ∧ c.op.isCopy = false ∧ Fpscr.ixe s.fpscr = true := by
  decide +kernel
theorem witness_VectorBounceKeepsEarlierIterations :
    let s := (((((ready 0x00030000#32).writeS 16#5 0x3F800000#32).writeS 17#5 0x3F800000#32).writeS 24#5
      0x3F800000#32).writeS 25#5 0x3F800000#32).writeS 18#5 0x00000001#32
    let c : Cdp := ⟨.add false, .single, 8#5, 16#5, 24#5⟩
    let sh := c.shape s.fpscr
    s.Runs (.fadds .al 8#5 16#5 24#5) c ∧ 2 < sh.iters ∧ Fpscr.ide s.fpscr = false ∧
      (∀ j : Fin 2, (iterH c.op c.p s.fpscr ((s.vectorRun c s.fpscr 0 j).source (c.at sh s.fpscr j))).1.clear = true) ∧
      (iterH c.op c.p s.fpscr ((s.vectorRun c s.fpscr 0 2).source (c.at sh s.fpscr 2))).1.must = true := by
  decide +kernel
theorem witness_VecitrCountsRemaining : (⟨8, true, true⟩ : Shape).iters ≤ 8 ∧ 0 < (⟨8, true, true⟩ : Shape).iters := by
  decide
theorem witness_TriggerInstructionBounces :
    exceptional.level = .hardware ∧ exceptional.Admits (.fcpys .al 0#5 1#5) ∧ Fpexc.ex exceptional.fpexc = true ∧
      (∀ c, cdpOf (.fcpys .al 0#5 1#5) = some c → c.overlapping exceptional.fpscr = false) ∧
      accessOf (.fcpys .al 0#5 1#5) = .vfp ∧ exceptional.win = .closed := by
  exact ⟨rfl, by decide +kernel, by decide +kernel, fun c h => by cases h; decide +kernel, rfl, rfl⟩
theorem witness_TriggerInstructionBounces_fpscr :
    windowed.level = .hardware ∧ windowed.Admits (.fmstat .al 0#7) ∧ Fpexc.ex windowed.fpexc = true ∧
      (∀ c, cdpOf (.fmstat .al 0#7) = some c → c.overlapping windowed.fpscr = false) ∧
      accessOf (.fmstat .al 0#7) = .sys .fpscr := by
  exact ⟨rfl, by decide +kernel, by decide +kernel, fun c h => (by cases h), rfl⟩
/-- Overlapping vectors are refused in the exceptional state too (60_exceptions.md R435). -/
theorem test_overlapping_trigger_is_refused :
    refusalOf (exec (.fadds .al 8#5 9#5 16#5) { exceptional with fpscr := 0x00030000#32 }) = some .vectorOverlap := by
  decide +kernel
/-- An illegal LEN and STRIDE does not keep the trigger instruction from trapping (40_cdp_common.md R168, R170). -/
theorem test_illegal_stride_trigger_traps :
    after (.fadds .al 0#5 1#5 2#5) { exceptional with fpscr := 0x00300000#32 } (fun t => (t.pc, Cpsr.mode t.cpsr)) =
      some (0x00000004#32, Mode.undefined) := by
  decide +kernel
theorem witness_TransferInTheOpenWindow_hazard :
    windowed.level = .hardware ∧ windowed.Admits (.fmsr .al 1#5 0#4 0#6) ∧
      accessOf (.fmsr .al 1#5 0#4 0#6) = .vfp ∧ cdpOf (.fmsr .al 1#5 0#4 0#6) = none ∧
      windowed.Hazard (.fmsr .al 1#5 0#4 0#6) 0x00000001#32 0x00000006#32 := by
  refine ⟨rfl, by decide +kernel, rfl, rfl, .inl ⟨1#5, ?_, ?_⟩⟩ <;> decide +kernel
theorem witness_TransferInTheOpenWindow_free :
    windowed.Admits (.fmsr .al 9#5 0#4 0#6) ∧
      ¬ windowed.Hazard (.fmsr .al 9#5 0#4 0#6) 0x00000001#32 0x00000006#32 ∧
      (windowed.movedIn (.fmsr .al 9#5 0#4 0#6)).isSome = true ∧
      (Config.freeBool windowed.draws = false ∨ Config.freeBool windowed.draws = true) := by
  refine ⟨by decide +kernel, ?_, by decide +kernel, ?_⟩
  · rintro (⟨r, hr, hb⟩ | ⟨r, hr, -⟩)
    · have : r = 9#5 := by simpa [State.transferWrites, State.loadOf, State.movedIn] using hr
      subst this; revert hb; decide +kernel
    · simp [State.transferReads, State.storeOf, movedOut] at hr
  · cases Config.freeBool windowed.draws <;> simp
theorem witness_PretriggerCapture_hazard :
    windowed.Admits (.fadds .al 8#5 0#5 9#5) ∧ windowed.win = .opened 0x00000001#32 0x00000006#32 true ∧
      cdpOf (.fadds .al 8#5 0#5 9#5) = some ⟨.add false, .single, 8#5, 0#5, 9#5⟩ ∧
      Cdp.refusal ⟨.add false, .single, 8#5, 0#5, 9#5⟩ windowed.fpscr = none ∧
      Cdp.noHazard ⟨.add false, .single, 8#5, 0#5, 9#5⟩ windowed.fpscr 0x00000007#32 = false := by
  decide +kernel
theorem witness_PretriggerCapture_refused :
    let s := { windowed with fpscr := 0x00300000#32 }
    s.Admits (.fadds .al 8#5 9#5 10#5) ∧ s.win = .opened 0x00000001#32 0x00000006#32 true ∧
      Cdp.refusal ⟨.add false, .single, 8#5, 9#5, 10#5⟩ s.fpscr = some .illegalLenStride := by
  decide +kernel
theorem witness_PretriggerCapture_free :
    windowed.Admits (.fadds .al 8#5 9#5 10#5) ∧
      cdpOf (.fadds .al 8#5 9#5 10#5) = some ⟨.add false, .single, 8#5, 9#5, 10#5⟩ ∧
      Cdp.refusal ⟨.add false, .single, 8#5, 9#5, 10#5⟩ windowed.fpscr = none ∧
      Cdp.noHazard ⟨.add false, .single, 8#5, 9#5, 10#5⟩ windowed.fpscr 0x00000007#32 = true := by
  decide +kernel
theorem witness_LoadReadsMemory :
    ∃ f, loaded.loadOf (.fldmxIaWb .al 1#4 14#4 2#7) = some f ∧ (Instr.fldmxIaWb .al 1#4 14#4 2#7).WellFormed ∧
      loaded.Ready .al ∧ loaded.Reachable f :=
  ⟨_, rfl, by decide +kernel⟩
theorem witness_StoreWritesMemory :
    ∃ f, loaded.storeOf (.fstmdDbWb .al 1#4 14#4 2#7) = some f ∧ (Instr.fstmdDbWb .al 1#4 14#4 2#7).WellFormed ∧
      loaded.Ready .al ∧ loaded.Reachable f ∧ loaded.NotCode f :=
  ⟨_, rfl, by decide +kernel⟩
/-- The third of four words aborts. -/
def aborting : State := { loaded with aborts := [(0x1008, 0x100C)] }
theorem witness_AbortedTransferIsPartial :
    let f : Transfer := ⟨[0#5, 1#5, 2#5, 3#5], 0x1000#32, 4, 1#4, some 0x1010#32⟩
    aborting.loadOf (.fldmsIaWb .al 1#4 0#5 4#8) = some f ∧ aborting.storeOf (.fstmsIaWb .al 1#4 0#5 4#8) = some f ∧
      (Instr.fldmsIaWb .al 1#4 0#5 4#8).WellFormed ∧ aborting.Ready .al ∧ aborting.NotCode f ∧
      f.start.extractLsb' 0 2 = 0#2 ∧ f.start.toNat + 4 * f.words ≤ 2 ^ 32 ∧
      f.pairs = [(0#5, 0x1000), (1#5, 0x1004)] ++ (2#5, 0x1008) :: [(3#5, 0x100C)] ∧
      aborting.abortsAt 0x1000 = false ∧ aborting.abortsAt 0x1004 = false ∧ aborting.abortsAt 0x1008 = true := by
  decide +kernel
theorem witness_TransferAddressRefusals :
    let f : Transfer := ⟨[0#5], 0x1001#32, 1, 1#4, none⟩
    let s := loaded.writeArm 1#4 0x1001#32
    s.loadOf (.flds .al true 1#4 0#5 0#8) = some f ∧ s.Ready .al ∧ f.start.extractLsb' 0 2 ≠ 0#2 := by
  decide +kernel
theorem witness_TransferAddressRefusals_wrap :
    let f : Transfer := ⟨[0#5, 1#5], 0xFFFFFFFC#32, 2, 1#4, none⟩
    let s := loaded.writeArm 1#4 0xFFFFFFFC#32
    s.storeOf (.fstmsIa .al 1#4 0#5 2#8) = some f ∧ s.Ready .al ∧ f.start.extractLsb' 0 2 = 0#2 ∧
      2 ^ 32 < f.start.toNat + 4 * f.words := by
  decide +kernel
theorem witness_TransferAddressRefusals_code :
    let f : Transfer := ⟨[0#5], 0x1000#32, 1, 1#4, none⟩
    let s := loaded.noteFetch 0x1000
    s.storeOf (.fsts .al true 1#4 0#5 0#8) = some f ∧ s.Ready .al ∧ f.start.extractLsb' 0 2 = 0#2 ∧
      f.start.toNat + 4 * f.words ≤ 2 ^ 32 ∧ ∃ w ∈ f.pairs, w.2 ∈ s.fetched := by
  decide +kernel
theorem witness_DoubleWordOrderInMemory :
    loaded.Ready .al ∧ isNext (exec (.fldd .al true 1#4 15#4 1#8) loaded) = true ∧
      isNext (exec (.fstd .al false 1#4 15#4 255#8) loaded) = true := by
  decide +kernel
theorem witness_SavedRegistersAreRestored :
    ∃ t, exec (.fstmxDbWb .al 1#4 14#4 2#7) loaded = .next t ∧ loaded.Ready .al ∧ t.Ready .al ∧
      savedBy (.fstmxDbWb .al 1#4 14#4 2#7) = restoredBy (.fldmxIaWb .al 1#4 14#4 2#7) ∧
      (Instr.fldmxIaWb .al 1#4 14#4 2#7).WellFormed ∧ t.bigEndian = loaded.bigEndian ∧ t.aborts = loaded.aborts ∧
      (t.loadOf (.fldmxIaWb .al 1#4 14#4 2#7)).map Transfer.start =
        (loaded.storeOf (.fstmxDbWb .al 1#4 14#4 2#7)).map Transfer.start :=
  ⟨_, rfl, by decide +kernel⟩
theorem witness_MoveToCoprocessor :
    ∃ ws, (ready 0#32).movedIn (.fmsrr .al 30#5 14#4 14#4) = some ws ∧ (Instr.fmsrr .al 30#5 14#4 14#4).WellFormed ∧
      (ready 0#32).Ready .al :=
  ⟨_, rfl, by decide +kernel⟩
theorem witness_MoveToCore :
    ∃ ws, movedOut (.fmrrd .al 0#4 14#4 15#4) = some ws ∧ (Instr.fmrrd .al 0#4 14#4 15#4).WellFormed ∧
      (ready 0#32).Ready .al :=
  ⟨_, rfl, by decide +kernel⟩
theorem witness_FmsrMovesToSingle :
    condOf (field 0xEE084A90#32 28 4) = some .al ∧ 0xEE084A90#32 &&& 0x0FF00F10#32 = 0x0E000A10#32 ∧
      0xEE084A90#32 &&& 0x0000006F#32 = 0#32 ∧ field 0xEE084A90#32 12 4 ≠ 15#4 ∧ (ready 0#32).Ready .al := by
  decide +kernel
theorem witness_FmxrWritesSystemRegister :
    (0#4 : ArmReg) ≠ 15#4 ∧ condPassed .al (ready 0#32).cpsr = true ∧ Fpexc.ex (ready 0#32).fpexc = false ∧
      (ready 0#32).readArm 0#4 &&& 0x0C086060#32 = 0#32 ∧ (ready 0#32).readArm 0#4 &&& 0x2FFFF872#32 = 0#32 ∧
      ∀ reg ∈ [SysReg.fpsid, .fpscr, .fpexc, .fpinst, .fpinst2, .mvfr0, .mvfr1],
        (ready 0#32).accessible (.sys reg) = true := by
  decide +kernel
theorem witness_FmrxReadsSystemRegister :
    (14#4 : ArmReg) ≠ 15#4 ∧ condPassed .al (ready 0#32).cpsr = true ∧
      (ready 0#32).accessible (.sys .fpinst2) = true := by
  decide +kernel
theorem witness_FmstatCopiesFlags :
    condPassed .al (ready 0#32).cpsr = true ∧ (ready 0#32).accessible (.sys .fpscr) = true ∧
      Fpexc.ex (ready 0#32).fpexc = false := by
  decide +kernel
theorem witness_ReservedBitsReadZero :
    let s := (ready 0#32).writeArm 0#4 0x00000022#32
    condPassed .al s.cpsr = true ∧ s.accessible (.sys .fpscr) = true ∧ s.accessible (.sys .fpexc) = true ∧
      Fpexc.ex s.fpexc = false ∧ s.readArm 0#4 &&& 0x0C086060#32 ≠ 0#32 ∧
      s.readArm 0#4 &&& 0x2FFFF872#32 ≠ 0#32 := by
  decide +kernel
theorem witness_ReservedBitsReadZero_inv : (ready 0#32).Inv :=
  ⟨by decide +kernel, by decide +kernel, by decide +kernel, fun h => absurd rfl h, by decide +kernel, by decide +kernel⟩
theorem witness_StepKeepsInvariant :
    (ready 0#32).Inv ∧ ∃ t, step ((ready 0#32).withFetchWord 32 0xEEF1FA10) = .next t :=
  ⟨witness_ReservedBitsReadZero_inv, exists_next (by decide +kernel)⟩
theorem witness_FlagsAreSticky :
    (∃ t, exec (.fadds .al 0#5 1#5 2#5) runFast = .next t) ∧
      ∀ c rd sbz, Instr.fadds .al 0#5 1#5 2#5 ≠ .fmxr c .fpscr rd sbz :=
  ⟨exists_next (by decide +kernel), fun _ _ _ h => by cases h⟩
theorem witness_EnableBitOnlyByFmxr :
    (∃ t, exec (.fmxr .al .fpinst 0#4 0#7) runFast = .next t) ∧
      (∀ c rd sbz, Instr.fmxr .al .fpinst 0#4 0#7 ≠ .fmxr c .fpexc rd sbz) ∧
      Fpexc.en State.reset.fpexc = false ∧ condPassed (Instr.fmstat .al 0#7).cond State.reset.cpsr = true ∧
      accessOf (.fmstat .al 0#7) ∈ [Access.vfp, .sys .fpscr] :=
  ⟨exists_next (by decide +kernel), (fun _ _ _ h => by cases h), by decide +kernel⟩
theorem witness_CapturedFlagIsNeverCleared :
    let s := { exceptional with fpexc := 0xD0000700#32 }
    s.level = .hardware ∧ (∃ t, exec (.fadds .al 0#5 1#5 2#5) s = .next t) ∧ Fpexc.fp2v s.fpexc = true :=
  ⟨rfl, exists_next (by decide +kernel), by decide +kernel⟩
theorem witness_CapturedFlagIsNeverCleared_window :
    (∃ t, exec (.fadds .al 8#5 0#5 9#5) windowed = .next t) ∧
      cdpOf (.fadds .al 8#5 0#5 9#5) = some ⟨.add false, .single, 8#5, 0#5, 9#5⟩ ∧ windowed.win ≠ .closed ∧
      windowed.Admits (.fadds .al 8#5 0#5 9#5) :=
  ⟨exists_next (by decide +kernel), rfl, by decide +kernel, by decide +kernel⟩
theorem witness_UserModeCannotLeaveExceptionalState :
    (user exceptional).level = .hardware ∧ Cpsr.mode (user exceptional).cpsr = Mode.user ∧
      Fpexc.ex (user exceptional).fpexc = true ∧
      ∃ t, exec (.fmxr .al .fpexc 0#4 0#7) (user exceptional) = .next t :=
  ⟨rfl, by decide +kernel, by decide +kernel, exists_next (by decide +kernel)⟩
theorem witness_OnlyTheTrapChangesTheMode : ∃ t, exec (.fmstat .al 0#7) exceptional = .next t :=
  exists_next (by decide +kernel)
theorem witness_OnlyStoresChangeMemory :
    (∃ t, exec (.fldmsIaWb .al 1#4 0#5 4#8) loaded = .next t) ∧ isStore (.fldmsIaWb .al 1#4 0#5 4#8) = false :=
  ⟨exists_next (by decide +kernel), rfl⟩
/-- Level A in the exceptional state, FPINST holding `FADDS S0, S1, S2`. -/
def levelA : State := { exceptional with level := .architecture }
theorem witness_SupportCodeReturnsToTrigger : ∃ t, levelA.supportCode = .next t := exists_next (by decide +kernel)
theorem witness_TriggerExecutesAfterSupportCode :
    levelA.level = .architecture ∧ levelA.Admits (.flds .al true 1#4 9#5 0#8) ∧ Fpexc.ex levelA.fpexc = true ∧
      (∀ c, cdpOf (.flds .al true 1#4 9#5 0#8) = some c → c.overlapping levelA.fpscr = false) ∧
      accessOf (.flds .al true 1#4 9#5 0#8) = .vfp ∧ levelA.win = .closed ∧ ∃ t, levelA.supportCode = .next t :=
  ⟨rfl, by decide +kernel, by decide +kernel, fun c h => (by cases h), rfl, rfl, witness_SupportCodeReturnsToTrigger⟩
/-- A vector of two whose first element is subnormal: it bounces at iteration 0, one iteration remaining. -/
def bouncing : State :=
  (((ready 0x00010000#32).writeS 16#5 0x00000001#32).writeS 24#5 0x7F000000#32).writeS 17#5 0x3F800000#32
theorem witness_BouncedInstructionIsCompletedBySupportCode :
    let c : Cdp := ⟨.mul false, .single, 8#5, 16#5, 24#5⟩
    bouncing.Runs (.fmuls .al 8#5 16#5 24#5) c ∧ Fpexc.fp2v bouncing.fpexc = false ∧
      after (.fmuls .al 8#5 16#5 24#5) bouncing (fun t => (Fpexc.ex t.fpexc, Fpexc.remaining t.fpexc)) =
        some (true, 1) ∧
      look (bouncing.archFrom c bouncing.fpscr 0) (fun v => v.readS 8#5) = some 0x34800000#32 := by
  decide +kernel
theorem witness_BouncedInstructionIsCompletedBySupportCode_trap :
    let s := (ready 0x02000100#32).writeS 1#5 0x7F800001#32
    let c : Cdp := ⟨.add false, .single, 0#5, 1#5, 2#5⟩
    s.Runs (.fadds .al 0#5 1#5 2#5) c ∧ after (.fadds .al 0#5 1#5 2#5) s (fun t => Fpexc.ex t.fpexc) = some true ∧
      (match s.archFrom c s.fpscr 0 with
      | .fault (.userTrap .invalidOperation _) => true
      | _ => false) = true := by
  decide +kernel
/-- The premises about a captured instruction: it is admitted in the window, and either it is captured or it traps. -/
theorem witness_BouncedInstructionIsCompletedBySupportCode_captured :
    cdpOf (.fadds .al 8#5 9#5 10#5) = some ⟨.add false, .single, 8#5, 9#5, 10#5⟩ ∧
      windowed.Admits (.fadds .al 8#5 9#5 10#5) ∧ Config.freeBool windowed.draws = windowed.draw.1 ∧
      Fpexc.fp2v (windowed.draw.2.capture (encode (.fadds .al 8#5 9#5 10#5))).fpexc = true := by
  refine ⟨rfl, by decide +kernel, rfl, by decide +kernel⟩
theorem witness_TriggerExecutesAfterSupportCode_stops :
    refusalOf (State.supportCode { levelA with fpinst := 0xE1A00000#32 }) = some .supportCode := by decide +kernel
theorem witness_RoundingToMultiples : 2 * (24 % 2 ^ 4) = 2 ^ 4 ∧ (roundUnits .nearest false 24 false 4).1 = 2 := by
  decide
theorem witness_RoundingToMultiples_sticky : 0 < 4 ∧ (roundUnits .nearest false 8 true 4).1 = 1 := by decide
theorem witness_TriggerExecutesAfterSupportCode_traps :
    (match State.supportCode { levelA with fpscr := 0x00000100#32, fpinst := 0xEE800A20#32 } with
    | .fault (.userTrap .invalidOperation _) => true
    | _ => false) = true := by
  decide +kernel

end Sys2Proof.Tests
end

/-! Proofs, scope: what one step makes of the word at the program counter, cancelled instructions, and RunFast mode
(00_scope.md R9, R10, R19, R20; 30_encoding.md R122, R142; 60_exceptions.md R433, R434). -/

namespace Sys2Proof

/-! ### Words outside the instruction set -/

/-- A word whose bits [11:9] name no VFP coprocessor is none of the decoder's (30_encoding.md R142). -/
theorem decode_otherCoprocessor {w : Word} (h : field w 9 3 ≠ 0b101#3) : decode w = .notVfp := if_neg h

/-- Condition 1111 of coprocessors 10 and 11 is Undefined in each of the three classes (30_encoding.md R122). -/
theorem decode_unconditional {w : Word} (hcond : field w 28 4 = 0b1111#4) (hcp : field w 9 3 = 0b101#3)
    (hclass : field w 24 4 ∈ [0b1100#4, 0b1101#4, 0b1110#4]) : decode w = .undefined none .unconditional := by
  have hnone : condOf 0b1111#4 = none := rfl
  simp only [List.mem_cons, List.not_mem_nil, or_false] at hclass
  rcases hclass with hc | hc | hc <;> simp [decode, hcp, hcond, hc, hnone]

/-- A bit of a field that is all zero is clear. -/
theorem bitAt_of_field_eq_zero {w : Word} {lo n k : Nat} (h : field w lo n = 0#n) (hk : k < n) :
    bitAt w (lo + k) = false := by
  have hbit := congrArg (fun v => v.getLsbD k) h
  simpa [bitAt, field, BitVec.getLsbD_extractLsb', hk] using hbit

end Sys2Proof

namespace Sys2Proof.Machine

/-! ### The fetch -/

theorem State.fetchRefused_iff (s : State) : s.fetchRefused = true ↔ s.fetchAddr ∈ s.stored := by
  simp [State.fetchRefused]

@[simp] theorem State.fetch_cpsr (s : State) : s.fetch.cpsr = s.cpsr := rfl

theorem State.fetch_eq_update_fetched (s : State) : s.fetch = { s with fetched := s.fetch.fetched } := rfl

/-- A noted address joins the notes; none is lost, and one noted before is not noted twice. -/
theorem State.mem_noteFetch_fetched (s : State) (b a : Nat) :
    a ∈ (s.noteFetch b).fetched ↔ a = b ∨ a ∈ s.fetched := by
  simp only [State.noteFetch]
  split
  next hb =>
    have hmem : b ∈ s.fetched := by simpa using hb
    exact ⟨.inr, fun h => h.elim (fun hab => hab ▸ hmem) id⟩
  next => exact List.mem_cons

/-! ### One step, by what the decoder reads -/

theorem step_stored {s : State} (h : s.fetchAddr ∈ s.stored) : step s = .refused .fetchOfStored :=
  if_pos (s.fetchRefused_iff.mpr h)

section
variable {s : State} (hs : s.fetchAddr ∉ s.stored)
include hs

/-- A word no VFP store wrote is not refused, and what is fetched is what the decoder reads from it. -/
theorem step_of_fetchDecoded {d : Decoded} (hd : decode (s.readWord s.fetchAddr) = d) :
    s.fetchRefused = false ∧ s.fetchDecoded = d :=
  ⟨Bool.eq_false_iff.mpr (mt s.fetchRefused_iff.mp hs), hd⟩

theorem step_instr {i : Instr} (hd : decode (s.readWord s.fetchAddr) = .instr i) : step s = exec i s.fetch := by
  obtain ⟨hr, hf⟩ := step_of_fetchDecoded hs hd
  simp [step, hr, hf]

theorem step_undefined {c : Option Cond} {u : Illegal} (hd : decode (s.readWord s.fetchAddr) = .undefined c u) :
    step s = s.fetch.illegal c := by
  obtain ⟨hr, hf⟩ := step_of_fetchDecoded hs hd
  simp [step, hr, hf]

theorem step_notVfp (hd : decode (s.readWord s.fetchAddr) = .notVfp) : step s = .refused .notVfp := by
  obtain ⟨hr, hf⟩ := step_of_fetchDecoded hs hd
  simp [step, hr, hf]

end

theorem State.illegal_none (s : State) : s.illegal none = .next s.takeUndefined := rfl

theorem State.illegal_some (s : State) (c : Cond) :
    s.illegal (some c) = .next (if condPassed c s.cpsr then s.takeUndefined else s.advance) :=
  (apply_ite Host.Outcome.next _ _ _).symm

/-- Settles O4: the fetch leaves its note and the decoded instruction runs. -/
theorem stepRunsDecodedInstruction : Obligations.StepRunsDecodedInstruction := by
  intro s i hs hd
  exact ⟨step_instr hs hd, s.fetch_eq_update_fetched, s.mem_noteFetch_fetched s.fetchAddr⟩

/-- Settles O5: one clause for each thing the decoder can read from a word that is no instruction, and one for a
word that is not decoded at all. -/
theorem undefinedWordTraps : Obligations.UndefinedWordTraps := by
  refine ⟨fun s c u hs hd => ?conditional, fun s hs hcond hcp hclass => ?unconditional, fun s hs hcp => ?other,
    fun s hs => step_stored hs⟩
  case conditional => rw [step_undefined hs hd, State.illegal_some, State.fetch_cpsr]
  case unconditional => rw [step_undefined hs (decode_unconditional hcond hcp hclass), State.illegal_none]
  case other => exact step_notVfp hs (decode_otherCoprocessor hcp)

/-! ### Cancelled instructions -/

/-- Every instruction goes through the gate, with the access that `accessOf` names (60_exceptions.md R454). -/
theorem exec_eq_checked (i : Instr) (s : State) : ∃ go, exec i s = checked i (accessOf i) go s := by
  cases i <;> exact ⟨_, rfl⟩

/-- The gate tests the condition before all else (60_exceptions.md R454 step 1). -/
theorem checked_cancelled {i : Instr} {s : State} (h : condPassed i.cond s.cpsr = false) (a : Access)
    (go : State → Result) : checked i a go s = .next s.advance := by
  simp [checked, h]

/-- Settles O6: no instruction does anything before the gate, and the gate tests the condition first. -/
theorem cancelledInstructionOnlyAdvances : Obligations.CancelledInstructionOnlyAdvances := by
  intro i s h
  obtain ⟨go, hgo⟩ := exec_eq_checked i s
  rw [hgo, checked_cancelled h]

/-! ### RunFast mode -/

/-- The bits by which RunFast mode is stated are those of 00_scope.md R19. -/
theorem runFast_of_bits {w : Word} (hfz : bitAt w 24 = true) (hdn : bitAt w 25 = true) (hen : field w 8 5 = 0#5)
    (hide : bitAt w 15 = false) : Fpscr.runFast w = true := by
  have hioe : Fpscr.ioe w = false := bitAt_of_field_eq_zero (k := 0) hen (by omega)
  have hdze : Fpscr.dze w = false := bitAt_of_field_eq_zero (k := 1) hen (by omega)
  have hofe : Fpscr.ofe w = false := bitAt_of_field_eq_zero (k := 2) hen (by omega)
  have hufe : Fpscr.ufe w = false := bitAt_of_field_eq_zero (k := 3) hen (by omega)
  have hixe : Fpscr.ixe w = false := bitAt_of_field_eq_zero (k := 4) hen (by omega)
  simp [Fpscr.runFast, Fpscr.fz, Fpscr.dn, Fpscr.ide, *]

/-- In RunFast mode every iteration completes, so what completing one keeps holds after all of them
(40_cdp_common.md R190). -/
theorem State.runIterations_runFast_keeps {Q : State → Prop} (hq : ∀ s c e fl, Q s → Q (State.complete s c e fl))
    (word : Word) (c : Cdp) (sh : Shape) {w : Word} (hw : Fpscr.runFast w = true) (left : Nat) (s : State) (hs : Q s) :
    Q (s.runIterations word c sh w left) := by
  induction left generalizing s with
  | zero => exact hs
  | succ rest ih =>
    rw [State.runIterations_clear _ _ _ _ _ _ (iterH_runFast_clear _ _ _ _ hw)]
    exact ih _ (hq _ _ _ _ hs)

theorem State.complete_sameSystem {s u : State} (h : SameSystem s u) (c : Cdp) (e : Effect) (fl : Cumulative) :
    SameSystem s (u.complete c e fl) where
  fpexc := by simp [h.fpexc]
  fpinst := by simp [h.fpinst]
  fpinst2 := by simp [h.fpinst2]
  fpinst2Defined := by simp [h.fpinst2Defined]
  win := by simp [h.win]

/-- A CDP instruction in RunFast mode, scalar or vector, does not enter the exceptional state. -/
theorem State.runCdp_runFast (s : State) (word : Word) (c : Cdp) (hw : Fpscr.runFast s.fpscr = true) :
    SameSystem s (s.runCdp word c) ∧ (s.runCdp word c).pc = s.pc + 4#32 := by
  obtain ⟨hsys, hpc⟩ := State.runIterations_runFast_keeps (Q := fun u => SameSystem s u ∧ u.pc = s.pc)
    (fun u c e fl ⟨hsys, hpc⟩ => ⟨State.complete_sameSystem hsys c e fl, by simp [hpc]⟩)
    word c (c.shape s.fpscr) hw (c.shape s.fpscr).iters s ⟨⟨rfl, rfl, rfl, rfl, rfl⟩, rfl⟩
  exact ⟨⟨hsys.fpexc, hsys.fpinst, hsys.fpinst2, hsys.fpinst2Defined, hsys.win⟩, by simp [State.runCdp, hpc]⟩

/-- Settles O25: no iteration has a condition to bounce on in RunFast mode; the trap of an Undefined word is no
matter of FPSCR. -/
theorem runFastNeverBounces : Obligations.RunFastNeverBounces := by
  refine ⟨fun s i c hrun hfz hdn hen hide => ?normal, fun s u _ hs hd => ?illegal⟩
  case normal =>
    obtain ⟨hsys, hpc⟩ := s.runCdp_runFast (encode i) c (runFast_of_bits hfz hdn hen hide)
    exact ⟨_, exec_runs hrun, hsys.fpexc, hsys.fpinst, hsys.win, hpc⟩
  case illegal => rw [step_undefined hs hd, State.illegal_some, condPassed, if_pos rfl]

end Sys2Proof.Machine

/-! Proofs, state: the invariant every step keeps, what only FMXR and the bounce change of FPSCR and FPEXC, the system
register accesses, and what a CDP instruction leaves unchanged (10_state.md R31 to R75; 60_exceptions.md R415, R426,
R450 to R453). -/

namespace Sys2Proof.Machine

/-! ### The fields a bounce changes (60_exceptions.md R415) -/

section
variable (s : State) (word : Word)

@[simp] theorem State.bounce_fpscr (c : Cdp) (sh : Shape) (w : Word) (k : Nat) (b : Bool) (fl : BounceFlags) :
    (s.bounce word c sh w k b fl).fpscr = Fpscr.raise s.fpscr { idc := (s.drawIf b).1 } := by
  simp [State.bounce]

@[simp] theorem State.bounce_fpexc (c : Cdp) (sh : Shape) (w : Word) (k : Nat) (b : Bool) (fl : BounceFlags) :
    (s.bounce word c sh w k b fl).fpexc = Fpexc.bounce s.fpexc (sh.iters - k - 1) fl := by
  simp [State.bounce]

@[simp] theorem State.bounce_fpinst (c : Cdp) (sh : Shape) (w : Word) (k : Nat) (b : Bool) (fl : BounceFlags) :
    (s.bounce word c sh w k b fl).fpinst = (c.at sh w k).exceptionalWord sh word := by
  simp [State.bounce]

@[simp] theorem State.bounce_win (c : Cdp) (sh : Shape) (w : Word) (k : Nat) (b : Bool) (fl : BounceFlags) :
    (s.bounce word c sh w k b fl).win =
      .opened (c.dstMasks sh w k (sh.iters - k)) (c.srcMasks sh w k (sh.iters - k)) (sh.iters - k == 1) := by
  simp [State.bounce]

end

/-! ### The invariant -/

/-- The next word address is a word address (10_state.md R39). -/
theorem aligned_add_four {a : Word} (h : a.extractLsb' 0 2 = 0#2) : (a + 4#32).extractLsb' 0 2 = 0#2 := by
  have ha := congrArg BitVec.toNat h
  simp only [BitVec.extractLsb'_toNat, Nat.shiftRight_zero, BitVec.toNat_ofNat] at ha
  apply BitVec.eq_of_toNat_eq
  simp only [BitVec.extractLsb'_toNat, Nat.shiftRight_zero, BitVec.toNat_add, BitVec.toNat_ofNat]
  omega

theorem undefinedVector_aligned (s : State) : s.undefinedVector.extractLsb' 0 2 = 0#2 := by
  unfold State.undefinedVector
  split <;> rfl

section
variable {s : State}

theorem State.Inv.advance (h : s.Inv) : s.advance.Inv :=
  { h with pcAligned := aligned_add_four h.pcAligned }

theorem State.Inv.takeUndefined (h : s.Inv) : s.takeUndefined.Inv :=
  { h with
    openEx := fun hw => absurd rfl hw
    modeLegal := by rw [State.takeUndefined_cpsr, Cpsr.mode_enterUndefined]; decide
    pcAligned := undefinedVector_aligned s }

theorem State.Inv.bounce (h : s.Inv) (word : Word) (c : Cdp) (sh : Shape) (w : Word) (k : Nat) (b : Bool)
    (fl : BounceFlags) : (s.bounce word c sh w k b fl).Inv where
  memWf := by simpa using h.memWf
  fpscrSbz := by simpa using Fpscr.raise_sbz _ _ h.fpscrSbz
  fpexcSbz := by simpa using Fpexc.bounce_sbz _ _ _ h.fpexcSbz
  openEx := fun _ => by simpa using Fpexc.bounce_ex _ _ _
  modeLegal := by simpa using h.modeLegal
  pcAligned := by simpa using h.pcAligned

theorem State.Inv.capture (h : s.Inv) (word : Word) : (s.capture word).Inv :=
  { h with
    fpexcSbz := Fpexc.setFp2v_sbz _ h.fpexcSbz
    openEx := fun hw => absurd rfl hw
    pcAligned := aligned_add_four h.pcAligned }

/-- FMXR refuses the values that would break the invariant (10_state.md R53). -/
theorem State.Inv.writeSys (h : s.Inv) (hw : s.win = .closed) {r : SysReg} {v : Word} {t : State}
    (ht : s.writeSys r v = some t) : t.Inv := by
  cases r with
  | fpscr =>
    obtain ⟨hv, rfl⟩ := Option.ite_none_right_eq_some.mp ht |>.imp_right Option.some.inj
    exact { h with fpscrSbz := hv }
  | fpexc =>
    obtain ⟨hv, rfl⟩ := Option.ite_none_right_eq_some.mp ht |>.imp_right Option.some.inj
    exact { h with fpexcSbz := hv, openEx := fun ho => absurd hw ho }
  | fpinst | fpinst2 | fpsid | mvfr0 | mvfr1 => obtain rfl := Option.some.inj ht; exact { h with }

/-- What the support code keeps from its entry to its return, so that the return restores the invariant. -/
structure SupportInv (s u : State) : Prop where
  memWf : Memory.wf u.mem
  fpscrSbz : u.fpscr &&& Fpscr.sbzMask = 0#32
  fpexcSbz : u.fpexc &&& Fpexc.sbzMask = 0#32
  closed : u.win = .closed
  spsrUnd : u.spsrUnd = s.cpsr
  r14Und : u.r14Und = s.pc + 4#32

theorem complete_fpscr_sbz {s : State} (h : s.fpscr &&& Fpscr.sbzMask = 0#32) (c : Cdp) (e : Effect) (fl : Cumulative) :
    (s.complete c e fl).fpscr &&& Fpscr.sbzMask = 0#32 := by
  cases e with
  | reg v => simpa [State.complete] using Fpscr.raise_sbz _ _ h
  | nzcv b => exact Fpscr.raise_sbz _ _ (Fpscr.setNzcv_sbz _ _ h)

theorem SupportInv.complete {s u : State} (h : SupportInv s u) (c : Cdp) (e : Effect) (fl : Cumulative) :
    SupportInv s (u.complete c e fl) where
  memWf := by simpa using h.memWf
  fpscrSbz := complete_fpscr_sbz h.fpscrSbz c e fl
  fpexcSbz := by simpa using h.fpexcSbz
  closed := by simpa using h.closed
  spsrUnd := by simpa using h.spsrUnd
  r14Und := by simpa using h.r14Und

theorem SupportInv.inv_returnFromUndefined {s w : State} (hs : s.Inv) (h : SupportInv s w) :
    w.returnFromUndefined.Inv where
  memWf := h.memWf
  fpscrSbz := h.fpscrSbz
  fpexcSbz := h.fpexcSbz
  openEx := fun hw => absurd h.closed hw
  modeLegal := by simpa [h.spsrUnd] using hs.modeLegal
  pcAligned := by simpa [h.r14Und] using hs.pcAligned

theorem State.Inv.supportCode {t : State} (h : s.Inv) (ht : s.supportCode = .next t) : t.Inv := by
  obtain ⟨w, hw, rfl⟩ := State.supportCode_keeps (Q := SupportInv s) (fun _ c e fl hq => hq.complete c e fl) s t
    (fun u hu => by
      rcases hu with rfl | rfl <;>
        exact ⟨h.memWf, h.fpscrSbz, Fpexc.clearState_sbz _ h.fpexcSbz, rfl, rfl, rfl⟩) ht
  exact hw.inv_returnFromUndefined h

end

/-- Every primitive update of an instruction keeps the invariant. -/
theorem inv_keeps (i : Instr) : Keeps i State.Inv where
  advance _ h := h.advance
  undefined _ h := h.takeUndefined
  draw _ h := { h with }
  drawWord _ h := { h with }
  closeWin _ h := { h with openEx := fun hw => absurd rfl hw }
  support _ _ h ht := h.supportCode ht
  writeS _ _ _ h := { h with }
  writeArm s n v h := by
    unfold State.writeArm
    split
    · exact { h with }
    · exact h
  raise _ f h := { h with fpscrSbz := Fpscr.raise_sbz _ f h.fpscrSbz }
  nzcv _ b h := { h with fpscrSbz := Fpscr.setNzcv_sbz _ b h.fpscrSbz }
  cpsr s b h := { h with modeLegal := by simpa [Cpsr.mode_setNzcv] using h.modeLegal }
  writeWord _ _ a w h := { h with memWf := Memory.writeWord_wf _ a w h.memWf }
  writeSys _ _ _ _ _ _ _ _ _ hw h ht := h.writeSys hw ht
  bounce _ _ _ _ _ _ _ _ h := h.bounce ..
  capture _ word _ h := h.capture word

theorem State.Inv.fetch {s : State} (h : s.Inv) : s.fetch.Inv := { h with }

theorem State.Inv.illegal {s t : State} (h : s.Inv) {c : Option Cond} (ht : s.illegal c = .next t) : t.Inv := by
  cases c with
  | none => obtain rfl := Host.Outcome.next.inj ht; exact h.takeUndefined
  | some c =>
    rw [State.illegal_some] at ht
    obtain rfl := Host.Outcome.next.inj ht
    split
    · exact h.takeUndefined
    · exact h.advance

/-- Settles O48: what the decoder reads is executed, or is Undefined; the rest of the words answer no state. -/
theorem stepKeepsInvariant : Obligations.StepKeepsInvariant := by
  intro s t h ht
  unfold step at ht
  split at ht
  · cases ht
  · split at ht
    next i _ => exact exec_keeps i (inv_keeps i) _ _ h.fetch ht
    next c _ _ => exact h.fetch.illegal ht
    next => cases ht
    next => cases ht

/-! ### The state after reset -/

/-- Settles O47: memory is empty, the window closed and every register that the invariant speaks of a constant. -/
theorem resetMeetsInvariant : Obligations.ResetMeetsInvariant where
  memWf := reset_mem_wf
  fpscrSbz := rfl
  fpexcSbz := rfl
  openEx := fun hw => absurd rfl hw
  modeLegal := by decide
  pcAligned := rfl

theorem State.reset_isWritten (r : BitVec 5) : State.reset.isWritten r = false := by
  simp [State.isWritten, State.reset]

/-- Settles O49: the fields of the reset state, read off. -/
theorem resetValues : Obligations.ResetValues :=
  ⟨rfl, rfl, rfl, rfl, rfl, State.reset_isWritten, rfl, rfl, rfl, rfl⟩

/-! ### Registers and VECITR -/

theorem toNat_lowHalf (d : DReg) : (lowHalf d).toNat = 2 * d.toNat := by
  revert d; decide

theorem toNat_highHalf (d : DReg) : (highHalf d).toNat = 2 * d.toNat + 1 := by
  revert d; decide

theorem eq_lowHalf_iff (r : BitVec 5) (d : DReg) : r = lowHalf d ↔ r.toNat = 2 * d.toNat := by
  rw [← toNat_lowHalf, BitVec.toNat_inj]

theorem eq_highHalf_iff (r : BitVec 5) (d : DReg) : r = highHalf d ↔ r.toNat = 2 * d.toNat + 1 := by
  rw [← toNat_highHalf, BitVec.toNat_inj]

/-- An S register after a D register was written. -/
theorem State.readS_writeD (s : State) (d : DReg) (v : BitVec 64) (r : BitVec 5) :
    (s.writeD d v).readS r =
      if r = lowHalf d then v.extractLsb' 0 32 else if r = highHalf d then v.extractLsb' 32 32 else s.readS r := by
  by_cases hl : r = lowHalf d
  · subst hl
    simp [State.writeD, State.readS_writeS, lowHalf_ne_highHalf]
  · simp [State.writeD, State.readS_writeS, hl]

/-- A D register after an S register was written. -/
theorem State.readD_writeS (s : State) (d : DReg) (r : BitVec 5) (x : Word) :
    (s.writeS r x).readD d =
      if r = lowHalf d then s.readS (highHalf d) ++ x
      else if r = highHalf d then x ++ s.readS (lowHalf d) else s.readD d := by
  by_cases hl : r = lowHalf d
  · subst hl
    simp [State.readD, State.readS_writeS, Ne.symm (lowHalf_ne_highHalf d d)]
  · by_cases hh : r = highHalf d
    · subst hh
      simp [State.readD, State.readS_writeS, lowHalf_ne_highHalf, Ne.symm (lowHalf_ne_highHalf d d)]
    · simp [State.readD, State.readS_writeS, hl, hh, Ne.symm hl, Ne.symm hh]

/-- Settles O13: S`2n` and S`2n+1` are the two halves of D`n`. -/
theorem doubleRegistersAliasPairs : Obligations.DoubleRegistersAliasPairs := by
  intro s d v r x
  refine ⟨⟨toNat_lowHalf d, toNat_highHalf d⟩, rfl, s.readD_writeD_self d v, ?_, ?_⟩
  · simpa only [eq_lowHalf_iff, eq_highHalf_iff] using s.readS_writeD d v r
  · simpa only [eq_lowHalf_iff, eq_highHalf_iff] using s.readD_writeS d r x

/-- No cause flag stands in the place of VECITR (10_state.md R65). -/
theorem BounceFlags.word_vecitr (f : BounceFlags) : Fpexc.vecitr f.word = 0#3 := by
  rcases f with ⟨a, b, c, d⟩
  revert a b c d
  decide

theorem Fpexc.bounce_vecitr (w : Word) (n : Nat) (f : BounceFlags) :
    Fpexc.vecitr (Fpexc.bounce w n f) = vecitrOf n := by
  apply BitVec.eq_of_getLsbD_eq
  intro i hi
  have hf := congrArg (fun v => v.getLsbD i) f.word_vecitr
  have h8 : ¬ 8 + i < 8 := by omega
  have h11 : 8 + i < 11 := by omega
  simp only [Fpexc.vecitr, field, BitVec.getLsbD_extractLsb', hi, decide_true, Bool.true_and,
    BitVec.getLsbD_zero] at hf ⊢
  rw [Fpexc.getLsbD_bounce _ _ _ _ (by omega), hf, if_neg h8, if_pos h11, Bool.or_false, Nat.add_sub_cancel_left]

/-- Settles O30: a bounce at iteration `k` leaves `iters - k - 1` iterations. -/
theorem vecitrCountsRemaining : Obligations.VecitrCountsRemaining := by
  refine ⟨by decide, fun s word c sh w k b fl hle hk => ?_⟩
  have hleft : sh.iters - k - 1 = sh.iters - 1 - k := by omega
  rw [Fpexc.remaining, State.bounce_fpexc, Fpexc.bounce_vecitr, hleft]
  refine ⟨?_, remaining_vecitrOf _ (by omega)⟩
  rw [vecitrOf, BitVec.toNat_ofNat]

/-! ### The gate: denied and admitted instructions -/

theorem checked_denied {i : Instr} {a : Access} {s : State} (hc : condPassed i.cond s.cpsr = true)
    (ha : s.accessible a = false) (go : State → Result) : checked i a go s = .next s.takeUndefined := by
  simp [checked, hc, ha]

/-- An instruction whose access is denied traps, whatever it is (60_exceptions.md R454 steps 2 to 4). -/
theorem exec_denied {i : Instr} {s : State} (hc : condPassed i.cond s.cpsr = true)
    (ha : s.accessible (accessOf i) = false) : exec i s = .next s.takeUndefined := by
  obtain ⟨go, hgo⟩ := exec_eq_checked i s
  rw [hgo, checked_denied hc ha]

theorem privileged_eq_false {w : Word} (h : Cpsr.mode w = Mode.user) : Cpsr.privileged w = false := by
  simp [Cpsr.privileged, h]

theorem cpAllows_denied {s : State} (h : s.cpAccess = .denied) : s.cpAllows = false := by
  simp [State.cpAllows, h]

theorem cpAllows_user {s : State} (h : s.cpAccess = .privilegedOnly) (hm : Cpsr.mode s.cpsr = Mode.user) :
    s.cpAllows = false := by
  simp [State.cpAllows, h, privileged_eq_false hm]

theorem accessible_of_cpAllows_false {s : State} (h : s.cpAllows = false) (a : Access) : s.accessible a = false := by
  simp [State.accessible, h]

/-- With EN = 0 the coprocessor and FPSCR are accessible in no mode (60_exceptions.md R453). -/
theorem accessible_disabled {s : State} {a : Access} (hen : Fpexc.en s.fpexc = false) (ha : a ∈ [.vfp, .sys .fpscr]) :
    s.accessible a = false := by
  simp only [List.mem_cons, List.not_mem_nil, or_false] at ha
  rcases ha with rfl | rfl <;> simp [State.accessible, Access.permitted, hen]

/-- With EN = 0 User mode accesses nothing (60_exceptions.md R453). -/
theorem accessible_disabled_user {s : State} (hen : Fpexc.en s.fpexc = false) (hm : Cpsr.mode s.cpsr = Mode.user)
    (a : Access) : s.accessible a = false := by
  have hp : a.permitted false false = false := by
    cases a with
    | vfp => rfl
    | sys r => cases r <;> rfl
  simp [State.accessible, hen, privileged_eq_false hm, hp]

/-- FPEXC, FPINST and FPINST2 are accessible in no User mode (60_exceptions.md R451). -/
theorem accessible_user {s : State} {a : Access} (hm : Cpsr.mode s.cpsr = Mode.user)
    (ha : a ∈ [.sys .fpexc, .sys .fpinst, .sys .fpinst2]) : s.accessible a = false := by
  simp only [List.mem_cons, List.not_mem_nil, or_false] at ha
  rcases ha with rfl | rfl | rfl <;> simp [State.accessible, Access.permitted, privileged_eq_false hm]

/-- Settles O7: each of the five grounds denies the access. -/
theorem inaccessibleInstructionTraps : Obligations.InaccessibleInstructionTraps := by
  intro i s hc h
  refine exec_denied hc ?_
  rcases h with hd | ⟨hp, hm⟩ | ⟨hen, ha⟩ | ⟨hen, hm⟩ | ⟨hm, ha⟩
  · exact accessible_of_cpAllows_false (cpAllows_denied hd) _
  · exact accessible_of_cpAllows_false (cpAllows_user hp hm) _
  · exact accessible_disabled hen ha
  · exact accessible_disabled_user hen hm _
  · exact accessible_user hm ha

/-! ### System register accesses -/

/-- A register that does not depend on the program counter is read from the ARM registers alone. -/
theorem State.readArm_of_arm {s t : State} (h : t.arm = s.arm) {n : BitVec 4} (hn : n ≠ 15#4) :
    t.readArm n = s.readArm n := by
  have hlt : n.toNat < 15 := by bv_omega
  simp [State.readArm, hlt, h]

section
variable {s : State} {c : Cond} {rd : ArmReg} {reg : SysReg}

/-- An admitted access to a system register is carried out with the window closed, unless it is the trigger
(45_ls_register_transfer.md R360). -/
theorem sysAccess_admitted {i : Instr} (hc : condPassed i.cond s.cpsr = true) (ha : s.accessible (.sys reg) = true)
    (hu : i.WellFormed) (hex : reg = .fpscr → Fpexc.ex s.fpexc = false) (f : State → Result) :
    sysAccess i reg f s = f s.closeWin := by
  rw [sysAccess, checked_ready hc ha hu, issueSerial, if_neg]
  simpa using hex

variable (hrd : rd ≠ 15#4) (hc : condPassed c s.cpsr = true) (ha : s.accessible (.sys reg) = true)
  (hex : reg = .fpscr → Fpexc.ex s.fpexc = false)
include hrd

theorem fmxr_wellFormed : (Instr.fmxr c reg rd 0#7).WellFormed := by
  simp [Instr.WellFormed, Instr.unpredictable, sbzCheck, armCheck, hrd]

theorem fmrx_wellFormed : (Instr.fmrx c rd reg 0#7).WellFormed := by
  simp [Instr.WellFormed, Instr.unpredictable, sbzCheck, armCheck, hrd]

include hc ha hex

theorem exec_fmxr_written {t : State} (ht : s.closeWin.writeSys reg (s.readArm rd) = some t) :
    exec (.fmxr c reg rd 0#7) s = .next t.advance := by
  refine (sysAccess_admitted (i := .fmxr c reg rd 0#7) hc ha (fmxr_wellFormed hrd) hex _).trans ?_
  rw [show s.closeWin.readArm rd = s.readArm rd from rfl, ht]

theorem exec_fmxr_refused (ht : s.closeWin.writeSys reg (s.readArm rd) = none) :
    exec (.fmxr c reg rd 0#7) s = .refused .sbzWrite := by
  refine (sysAccess_admitted (i := .fmxr c reg rd 0#7) hc ha (fmxr_wellFormed hrd) hex _).trans ?_
  rw [show s.closeWin.readArm rd = s.readArm rd from rfl, ht]

theorem exec_fmrx :
    exec (.fmrx c rd reg 0#7) s =
      .next ((s.closeWin.readSys reg).2.writeArm rd (s.closeWin.readSys reg).1).advance :=
  sysAccess_admitted (i := .fmrx c rd reg 0#7) hc ha (fmrx_wellFormed hrd) hex _

end

/-- A system register is read without looking at the window. -/
theorem State.readSys_closeWin (s : State) (reg : SysReg) : (s.closeWin.readSys reg).1 = (s.readSys reg).1 := by
  cases reg with
  | fpinst2 =>
    cases h : s.fpinst2Defined <;> simp [State.readSys, h, State.drawWord]
  | fpsid | fpscr | mvfr1 | mvfr0 | fpexc | fpinst => rfl

/-- Reading a system register draws a free value at most. -/
theorem State.readSys_snd (s : State) (reg : SysReg) : ∃ n, (s.readSys reg).2 = { s with draws := n } := by
  cases reg with
  | fpinst2 =>
    simp only [State.readSys]
    split <;> exact ⟨_, rfl⟩
  | fpsid | fpscr | mvfr1 | mvfr0 | fpexc | fpinst => exact ⟨_, rfl⟩

/-- A write of an ARM register changes nothing but the ARM registers. -/
theorem State.writeArm_eq_update (s : State) (n : BitVec 4) (v : Word) :
    s.writeArm n v = { s with arm := (s.writeArm n v).arm } := by
  unfold State.writeArm
  split <;> rfl

/-- What an admitted FMRX answers: the ARM register holds what the system register reads, the window is closed. -/
theorem exec_fmrx_next {s : State} {c : Cond} {rd : ArmReg} {reg : SysReg} (hrd : rd ≠ 15#4)
    (hc : condPassed c s.cpsr = true) (ha : s.accessible (.sys reg) = true)
    (hex : reg = .fpscr → Fpexc.ex s.fpexc = false) :
    ∃ t, exec (.fmrx c rd reg 0#7) s = .next t ∧ t.readArm rd = (s.readSys reg).1 ∧
      t = { s with arm := t.arm, win := .closed, pc := s.pc + 4#32, draws := t.draws } ∧
      ∀ r, r ≠ rd → r ≠ 15#4 → t.readArm r = s.readArm r := by
  obtain ⟨n, hn⟩ := s.closeWin.readSys_snd reg
  refine ⟨_, exec_fmrx hrd hc ha hex, ?_, ?_, fun r hne hr => ?_⟩
  · rw [State.readArm_of_arm (State.advance_arm _) hrd, State.readArm_writeArm _ _ _ _ hrd, if_pos rfl,
      State.readSys_closeWin]
  · rw [hn, State.writeArm_eq_update]
    rfl
  · rw [State.readArm_of_arm (State.advance_arm _) hr, State.readArm_writeArm _ _ _ _ hrd, if_neg hne, hn]
    rfl

/-- Settles O43: FMXR writes what `writeSys` writes, with the window closed. -/
theorem fmxrWritesSystemRegister : Obligations.FmxrWritesSystemRegister := by
  refine fun s c rd hrd hc => ⟨fun ha hex hv => ?_, fun ha hv => ?_, fun ha => ?_, fun ha => ?_, fun reg hreg ha => ?_⟩
  · exact exec_fmxr_written hrd hc ha (fun _ => hex) (if_pos hv)
  · exact exec_fmxr_written hrd hc ha nofun (if_pos hv)
  · exact exec_fmxr_written hrd hc ha nofun rfl
  · exact exec_fmxr_written hrd hc ha nofun rfl
  · simp only [List.mem_cons, List.not_mem_nil, or_false] at hreg
    rcases hreg with rfl | rfl | rfl <;> exact exec_fmxr_written hrd hc ha nofun rfl

/-- Settles O44: FMRX reads what `readSys` reads. -/
theorem fmrxReadsSystemRegister : Obligations.FmrxReadsSystemRegister := by
  intro s c rd reg hrd hc ha hex
  obtain ⟨t, ht, hread, hframe, hothers⟩ := exec_fmrx_next hrd hc ha hex
  refine ⟨t, ht, hread.trans ?_, hframe, hothers⟩
  cases reg with
  | fpinst2 =>
    simp only [State.readSys]
    split <;> rfl
  | fpsid | fpscr | mvfr1 | mvfr0 | fpexc | fpinst => rfl

/-- Settles O46: FMXR lets no 1 in, and the invariant says that none was there. -/
theorem reservedBitsReadZero : Obligations.ReservedBitsReadZero := by
  refine ⟨fun s c rd hrd hc => ⟨fun ha hex hv => ?_, fun ha hv => ?_⟩,
    fun s c rd hinv hrd hc => ⟨fun ha hex => ?_, fun ha => ?_⟩⟩
  · exact exec_fmxr_refused hrd hc ha (fun _ => hex) (if_neg hv)
  · exact exec_fmxr_refused hrd hc ha nofun (if_neg hv)
  · obtain ⟨t, ht, hread, -⟩ := exec_fmrx_next hrd hc ha (fun _ => hex)
    exact ⟨t, ht, hread ▸ hinv.fpscrSbz⟩
  · obtain ⟨t, ht, hread, -⟩ := exec_fmrx_next hrd hc ha nofun
    exact ⟨t, ht, hread ▸ hinv.fpexcSbz⟩

/-! ### FMXR writes the register it names and no other -/

section
variable {s t : State} {r : SysReg} {v : Word} (ht : s.writeSys r v = some t)
include ht

/-- What FMXR answers for each register. -/
theorem writeSys_some : t = s ∨ (r = .fpscr ∧ t = s.setFpscr v) ∨ (r = .fpexc ∧ t = s.setFpexc v) ∨
    (r = .fpinst ∧ t = s.setFpinst v) ∨ (r = .fpinst2 ∧ t = s.setFpinst2 v) := by
  cases r with
  | fpscr =>
    obtain ⟨-, rfl⟩ := Option.ite_none_right_eq_some.mp ht |>.imp_right Option.some.inj
    exact .inr (.inl ⟨rfl, rfl⟩)
  | fpexc =>
    obtain ⟨-, rfl⟩ := Option.ite_none_right_eq_some.mp ht |>.imp_right Option.some.inj
    exact .inr (.inr (.inl ⟨rfl, rfl⟩))
  | fpinst => obtain rfl := Option.some.inj ht; exact .inr (.inr (.inr (.inl ⟨rfl, rfl⟩)))
  | fpinst2 => obtain rfl := Option.some.inj ht; exact .inr (.inr (.inr (.inr ⟨rfl, rfl⟩)))
  | fpsid | mvfr0 | mvfr1 => obtain rfl := Option.some.inj ht; exact .inl rfl

theorem writeSys_fpscr_of_ne (hr : r ≠ .fpscr) : t.fpscr = s.fpscr := by
  rcases writeSys_some ht with rfl | ⟨rfl, -⟩ | ⟨-, rfl⟩ | ⟨-, rfl⟩ | ⟨-, rfl⟩
  case inr.inl => exact absurd rfl hr
  all_goals rfl

theorem writeSys_fpexc_of_ne (hr : r ≠ .fpexc) : t.fpexc = s.fpexc := by
  rcases writeSys_some ht with rfl | ⟨-, rfl⟩ | ⟨rfl, -⟩ | ⟨-, rfl⟩ | ⟨-, rfl⟩
  case inr.inr.inl => exact absurd rfl hr
  all_goals rfl

theorem writeSys_fpinst_of_ne (hr : r ≠ .fpinst) : t.fpinst = s.fpinst := by
  rcases writeSys_some ht with rfl | ⟨-, rfl⟩ | ⟨-, rfl⟩ | ⟨rfl, -⟩ | ⟨-, rfl⟩
  case inr.inr.inr.inl => exact absurd rfl hr
  all_goals rfl

theorem writeSys_cpAccess : t.cpAccess = s.cpAccess := by
  rcases writeSys_some ht with rfl | ⟨-, rfl⟩ | ⟨-, rfl⟩ | ⟨-, rfl⟩ | ⟨-, rfl⟩ <;> rfl

end

/-! ### What arithmetic does to FPSCR (10_state.md R54, R62) -/

/-- From FPSCR `w` to `v` no control bit changes and no cumulative flag is cleared. -/
structure FlagsKept (w v : Word) : Prop where
  control : v &&& Fpscr.controlMask = w &&& Fpscr.controlMask
  cumulative : w &&& Fpscr.cumulativeMask &&& ~~~v = 0#32

theorem FlagsKept.refl (w : Word) : FlagsKept w w where
  control := rfl
  cumulative := by
    rw [BitVec.and_comm w, BitVec.and_assoc, BitVec.and_not_self]
    rfl

/-- The flags raised stand at other positions than the bits of the mask. -/
theorem raise_and_mask {m : Word} {f : Cumulative} (h : f.word &&& m = 0#32) (w : Word) :
    Fpscr.raise w f &&& m = w &&& m := by
  rw [Fpscr.raise, BitVec.and_or_distrib_right, h, BitVec.or_zero]

theorem Cumulative.word_control (f : Cumulative) : f.word &&& Fpscr.controlMask = 0#32 := by
  rcases f with ⟨a, b, c, d, e, g⟩
  revert a b c d e g
  decide

theorem Cumulative.word_nzcv (f : Cumulative) : f.word &&& nzcvMask = 0#32 := by
  rcases f with ⟨a, b, c, d, e, g⟩
  revert a b c d e g
  decide

/-- A bit of [31:28] in a word that has none of them set. -/
theorem getLsbD_of_and_nzcvMask {m : Word} (h : m &&& nzcvMask = 0#32) {i : Nat} (hi : i < 32) (h28 : ¬ i < 28) :
    m.getLsbD i = false := by
  have hbit := congrArg (fun v => v.getLsbD i) h
  have hmask : nzcvMask.getLsbD i = true := by
    have : i = 28 ∨ i = 29 ∨ i = 30 ∨ i = 31 := by omega
    rcases this with rfl | rfl | rfl | rfl <;> rfl
  simpa [hmask] using hbit

/-- N, Z, C and V stand at other positions than the bits of the mask. -/
theorem setNzcv_and_mask {m : Word} (h : m &&& nzcvMask = 0#32) (w : Word) (b : BitVec 4) :
    Fpscr.setNzcv w b &&& m = w &&& m := by
  apply BitVec.eq_of_getLsbD_eq
  intro i hi
  rw [BitVec.getLsbD_and, BitVec.getLsbD_and, Fpscr.getLsbD_setNzcv]
  split
  next => rfl
  next h28 => rw [getLsbD_of_and_nzcvMask h hi h28, Bool.and_false, Bool.and_false]

theorem FlagsKept.raise {w v : Word} (h : FlagsKept w v) (f : Cumulative) : FlagsKept w (Fpscr.raise v f) where
  control := (raise_and_mask f.word_control v).trans h.control
  cumulative := by
    rw [Fpscr.raise, BitVec.not_or, ← BitVec.and_assoc, h.cumulative, BitVec.zero_and]

theorem FlagsKept.setNzcv {w v : Word} (h : FlagsKept w v) (b : BitVec 4) : FlagsKept w (Fpscr.setNzcv v b) where
  control := (setNzcv_and_mask (by decide) v b).trans h.control
  cumulative := by
    rw [← h.cumulative]
    apply BitVec.eq_of_getLsbD_eq
    intro i hi
    simp only [BitVec.getLsbD_and, BitVec.getLsbD_not, Fpscr.getLsbD_setNzcv]
    split
    next => rfl
    next h28 => rw [getLsbD_of_and_nzcvMask (m := Fpscr.cumulativeMask) (by decide) hi h28]; simp

theorem FlagsKept.complete {w : Word} {s : State} (h : FlagsKept w s.fpscr) (c : Cdp) (e : Effect) (fl : Cumulative) :
    FlagsKept w (s.complete c e fl).fpscr := by
  cases e with
  | reg v => simpa [State.complete] using h.raise fl
  | nzcv b => exact (h.setNzcv b).raise fl

theorem supportCode_flagsKept {s t : State} {w : Word} (h : FlagsKept w s.fpscr) (ht : s.supportCode = .next t) :
    FlagsKept w t.fpscr := by
  obtain ⟨u, hu, rfl⟩ := State.supportCode_keeps (Q := fun u => FlagsKept w u.fpscr)
    (fun _ c e fl hq => hq.complete c e fl) s t (fun u hu => by rcases hu with rfl | rfl <;> exact h) ht
  exact hu

/-- Every primitive update but that of FMXR to FPSCR keeps the control bits and the cumulative flags. -/
theorem flagsKept_keeps {i : Instr} (hi : ∀ c rd sbz, i ≠ .fmxr c .fpscr rd sbz) (w : Word) :
    Keeps i (fun u => FlagsKept w u.fpscr) where
  advance _ h := h
  undefined _ h := h
  draw _ h := h
  drawWord _ h := h
  closeWin _ h := h
  support _ _ h ht := supportCode_flagsKept h ht
  writeS _ _ _ h := h
  writeArm _ _ _ h := by simpa using h
  raise _ f h := h.raise f
  nzcv _ b h := h.setNzcv b
  cpsr _ _ h := h
  writeWord _ _ _ _ h := h
  writeSys c _ rd sbz hfmxr _ _ _ _ _ h ht :=
    (writeSys_fpscr_of_ne ht (fun hr => hi c rd sbz (hr ▸ hfmxr))).symm ▸ h
  bounce _ _ _ _ _ _ _ _ h := by simpa using h.raise _
  capture _ _ _ h := h

/-- Settles O50: no update but that of FMXR to FPSCR changes a control bit or clears a flag. -/
theorem flagsAreSticky : Obligations.FlagsAreSticky := by
  intro s t i ht hi
  have h := exec_keeps i (flagsKept_keeps hi s.fpscr) s t (FlagsKept.refl _) ht
  exact ⟨h.control, h.cumulative⟩

/-! ### FPEXC.EN and FPEXC.FP2V (10_state.md R67, R69) -/

theorem Fpexc.setFp2v_en (w : Word) : Fpexc.en (Fpexc.setFp2v w) = Fpexc.en w := by
  simp [Fpexc.en, Fpexc.setFp2v, bitAt]

theorem Fpexc.setFp2v_ex (w : Word) : Fpexc.ex (Fpexc.setFp2v w) = Fpexc.ex w := by
  simp [Fpexc.ex, Fpexc.setFp2v, bitAt]

theorem Fpexc.setFp2v_fp2v (w : Word) : Fpexc.fp2v (Fpexc.setFp2v w) = true := by
  simp [Fpexc.fp2v, Fpexc.setFp2v, bitAt]

theorem Fpexc.bounce_fp2v (w : Word) (n : Nat) (f : BounceFlags) :
    Fpexc.fp2v (Fpexc.bounce w n f) = Fpexc.fp2v w := by
  have hf : f.word.getLsbD 28 = false := by
    rcases f with ⟨a, b, c, d⟩
    revert a b c d
    decide
  rw [Fpexc.fp2v, bitAt, Fpexc.getLsbD_bounce _ _ _ _ (by omega), hf]
  simp [Fpexc.fp2v, bitAt]

theorem supportCode_en {s t : State} (ht : s.supportCode = .next t) : Fpexc.en t.fpexc = Fpexc.en s.fpexc := by
  obtain ⟨u, hu, rfl⟩ := State.supportCode_keeps (Q := fun u => Fpexc.en u.fpexc = Fpexc.en s.fpexc)
    (fun _ c e fl hq => by simpa using hq) s t
    (fun u hu => by rcases hu with rfl | rfl <;> exact Fpexc.clearState_en _) ht
  exact hu

/-- Every primitive update but that of FMXR to FPEXC keeps EN. -/
theorem en_keeps {i : Instr} (hi : ∀ c rd sbz, i ≠ .fmxr c .fpexc rd sbz) (b : Bool) :
    Keeps i (fun u => Fpexc.en u.fpexc = b) where
  advance _ h := h
  undefined _ h := h
  draw _ h := h
  drawWord _ h := h
  closeWin _ h := h
  support _ _ h ht := (supportCode_en ht).trans h
  writeS _ _ _ h := h
  writeArm _ _ _ h := by simpa using h
  raise _ _ h := h
  nzcv _ _ h := h
  cpsr _ _ h := h
  writeWord _ _ _ _ h := h
  writeSys c _ rd sbz hfmxr _ _ _ _ _ h ht :=
    (writeSys_fpexc_of_ne ht (fun hr => hi c rd sbz (hr ▸ hfmxr))).symm ▸ h
  bounce _ _ _ _ _ _ _ _ h := by simpa [Fpexc.bounce_en] using h
  capture _ _ _ h := (Fpexc.setFp2v_en _).trans h

/-- Settles O51: the reset value, the frame, and the gate. -/
theorem enableBitOnlyByFmxr : Obligations.EnableBitOnlyByFmxr :=
  ⟨rfl, fun s t i ht hi => exec_keeps i (en_keeps hi (Fpexc.en s.fpexc)) s t rfl ht,
    fun _ _ hen hc ha => exec_denied hc (accessible_disabled hen ha)⟩

/-! ### Compares (42_fmac_copy_compare_convert.md R258) -/

theorem legalLenStride_of_refusal_none {c : Cdp} {w : Word} (h : c.refusal w = none) : legalLenStride w = true := by
  by_contra hl
  rw [Bool.not_eq_true] at hl
  simp [Cdp.refusal, hl] at h

/-- In RunFast mode a scalar instruction is its one iteration, completed (40_cdp_common.md R190). -/
theorem exec_runFast_scalar {i : Instr} {c : Cdp} {s : State} (hrun : s.Runs i c) (hs : c.Scalar s.fpscr)
    (hw : Fpscr.runFast s.fpscr = true) :
    exec i s = .next
      (s.complete c (iterH c.op c.p s.fpscr (s.source c)).2.1 (iterH c.op c.p s.fpscr (s.source c)).2.2).advance := by
  rw [exec_runs hrun, State.runCdp_scalar_clear _ _ _ hs (iterH_runFast_clear _ _ _ _ hw)]

/-- In RunFast mode the hardware compares as `runFastCompare` states it. -/
theorem cmpH_runFast (p : Prec) {w : Word} (hw : Fpscr.runFast w = true) (e : Bool) (a b : Fp) :
    (cmpH p w e a b).2 = (.nzcv (runFastCompare p e a b).1, (runFastCompare p e a b).2) := by
  obtain ⟨hfz, -, hide, -⟩ := runFast_bits hw
  have hflush (x : Fp) (hx : x.isSub p = true → anySub p [a, b] = true) :
      (anySub p [a, b] && Config.fcmpFzFlush && x.isSub p) = (Config.fcmpFzFlush && x.isSub p) := by
    cases hs : x.isSub p
    · simp
    · simp [hx hs]
  have ha := hflush a (fun h => by simp [anySub, h])
  have hb := hflush b (fun h => by simp [anySub, h])
  simp only [cmpH, runFastCompare, hfz, hide, Bool.true_and, Bool.not_false, Bool.and_true, ha, hb]
  simp [anySub, anyNan, anySnan, Bool.and_comm]

theorem exec_compare_runFast {i : Instr} {c : Cdp} {s : State} (hrun : s.Runs i c) (hv : c.op.canVector = false)
    (hw : Fpscr.runFast s.fpscr = true) {e : Bool} {a b : Fp}
    (hc : iterH c.op c.p s.fpscr (s.source c) = cmpH c.p s.fpscr e a b) :
    exec i s = .next (s.compared (runFastCompare c.p e a b)) := by
  have ⟨_, _, hrefusal, _⟩ := hrun
  rw [exec_runFast_scalar hrun ⟨legalLenStride_of_refusal_none hrefusal, .inl hv⟩ hw, hc, cmpH_runFast _ hw]
  rfl

/-- Settles O20: both kinds of compare are `cmpH`, with +0 for the second operand of the Z forms. -/
theorem comparesInRunFast : Obligations.ComparesInRunFast :=
  ⟨fun _ _ _ _ _ _ _ hrun hw => exec_compare_runFast hrun rfl hw rfl,
    fun _ _ _ _ _ _ _ hrun hw => exec_compare_runFast hrun rfl hw rfl⟩

/-- The flags raised by a compare do not stand in the place of N, Z, C and V. -/
theorem nzcv_raise_setNzcv (w : Word) (b : BitVec 4) (f : Cumulative) :
    Fpscr.nzcv (Fpscr.raise (Fpscr.setNzcv w b) f) = b := by
  apply BitVec.eq_of_getLsbD_eq
  intro i hi
  have hf : f.word.getLsbD (28 + i) = false := getLsbD_of_and_nzcvMask f.word_nzcv (by omega) (by omega)
  simp [Fpscr.nzcv, field, hi, Fpscr.raise, hf, Fpscr.getLsbD_setNzcv]

/-- An operand that is not subnormal is compared as it stands, whatever FCMP_FZ_FLUSH is. -/
theorem runFastCompare_not_sub {p : Prec} {a b : Fp} (ha : a.isSub p = false) (hb : b.isSub p = false) (e : Bool) :
    (runFastCompare p e a b).1 = (compareFp p a b).nzcv := by
  simp [runFastCompare, ha, hb]

/-- The four patterns of flags of a comparison (10_state.md R55). -/
theorem nzcv_compareFp (p : Prec) (a b : Fp) :
    (compareFp p a b).nzcv =
      if a.isNan p ∨ b.isNan p then 0b0011#4
      else if a.key p < b.key p then 0b1000#4
      else if a.key p = b.key p then 0b0110#4
      else 0b0010#4 := by
  simp only [compareFp, Bool.or_eq_true]
  split
  · rfl
  · split
    · rfl
    · split <;> rfl

/-- Settles O21: the flags are those of `compareFp`, and raising the cumulative ones leaves them as they are. -/
theorem compareSetsFlags : Obligations.CompareSetsFlags := by
  intro s i e p d n m hrun hw hd hm
  refine ⟨_, comparesInRunFast.1 s i e p d n m hrun hw, rfl, ?_⟩
  rw [← nzcv_compareFp, ← runFastCompare_not_sub hd hm e]
  exact nzcv_raise_setNzcv ..

/-! ### The iterations of a CDP instruction: what they keep (40_cdp_common.md R170) -/

theorem State.drawIf_snd (s : State) (b : Bool) : ∃ n, (s.drawIf b).2 = { s with draws := n } := by
  unfold State.drawIf
  split <;> exact ⟨_, rfl⟩

/-- Deciding whether an iteration bounces draws free values and does nothing else. -/
theorem State.decideBounce_snd (s : State) (c : Check) : ∃ n, (s.decideBounce c).2 = { s with draws := n } := by
  obtain ⟨n₁, h₁⟩ := s.drawIf_snd c.mayOver
  obtain ⟨n₂, h₂⟩ := (s.drawIf c.mayOver).2.drawIf_snd c.mayUnder
  obtain ⟨n₃, h₃⟩ := ((s.drawIf c.mayOver).2.drawIf c.mayUnder).2.drawIf_snd (c.input && c.optIoc && !c.invalid)
  simp only [State.decideBounce]
  split
  · exact ⟨n₃, by rw [h₃, h₂, h₁]⟩
  · exact ⟨n₂, by rw [h₂, h₁]⟩

/-- What free values, completed iterations and the bounce keep holds after all the iterations. -/
theorem State.runIterations_keeps {Q : State → Prop} (word : Word) (c : Cdp) (sh : Shape) (w : Word)
    (hdraw : ∀ u n, Q u → Q { u with draws := n })
    (hcomplete : ∀ u k x, k < sh.iters → Q u →
      Q (u.complete (c.at sh w k) (iterH c.op c.p w x).2.1 (iterH c.op c.p w x).2.2))
    (hbounce : ∀ u k b fl, Q u → Q (u.bounce word c sh w k b fl)) (left : Nat) (hleft : left ≤ sh.iters)
    (s : State) (hs : Q s) : Q (s.runIterations word c sh w left) := by
  induction left generalizing s with
  | zero => exact hs
  | succ rest ih =>
    simp only [State.runIterations]
    obtain ⟨n, hn⟩ :=
      s.decideBounce_snd (iterH c.op c.p w (s.source (c.at sh w (sh.iters - (rest + 1))))).1
    rw [hn]
    split
    · exact hbounce _ _ _ _ (hdraw _ _ hs)
    · exact ih (by omega) _ (hcomplete _ _ _ (by omega) (hdraw _ _ hs))

theorem iterH_reg {o : CdpOp} (h : o.writesD = true) (p : Prec) (w : Word) (x : Source) :
    ∃ v, (iterH o p w x).2.1 = .reg v := by
  cases o with
  | cmp | cmpz => cases h
  | add | mul | mac | div | sqrt | copy | cvt | fromInt | toInt => exact ⟨_, rfl⟩

theorem iterH_nzcv {o : CdpOp} (h : o.writesD = false) (p : Prec) (w : Word) (x : Source) :
    ∃ b, (iterH o p w x).2.1 = .nzcv b := by
  cases o with
  | cmp | cmpz => exact ⟨_, rfl⟩
  | add | mul | mac | div | sqrt | copy | cvt | fromInt | toInt => cases h

theorem getLsbD_foldl_or (ms : List Word) (m : Word) (i : Nat) :
    (ms.foldl (· ||| ·) m).getLsbD i = (m.getLsbD i || ms.any (·.getLsbD i)) := by
  induction ms generalizing m with
  | nil => simp
  | cons a rest ih => simp [ih, Bool.or_assoc]

/-- A register that no iteration names as its destination. -/
theorem dstMask_of_dstMasks {c : Cdp} {sh : Shape} {w : Word} {r k : Nat}
    (h : (c.dstMasks sh w 0 sh.iters).getLsbD r = false) (hk : k < sh.iters) :
    (c.at sh w k).dstMask.getLsbD r = false := by
  rw [Cdp.dstMasks, unionMask, getLsbD_foldl_or] at h
  have hall : ∀ j < sh.iters, (c.at sh w j).dstMask.getLsbD r = false := by
    simpa [Cdp.iterations] using h
  exact hall k hk

/-- A register outside the mask of a written one keeps its mark. -/
theorem State.isWritten_writeReg_other (s : State) (p : Prec) (r : BitVec 5) (v : BitVec 64) (q : BitVec 5)
    (h : ¬ (regMask p r).getLsbD q.toNat = true) : (s.writeReg p r v).isWritten q = s.isWritten q := by
  cases p with
  | single =>
    have hq : q ≠ r := by
      rintro rfl
      exact h (by simp [regMask, q.isLt])
    simp [State.writeReg, State.isWritten_writeS, hq]
  | double =>
    have hl : q ≠ lowHalf (dOf r) := by
      rintro rfl
      exact h (by simp [regMask, (lowHalf (dOf r)).isLt])
    have hh : q ≠ highHalf (dOf r) := by
      rintro rfl
      exact h (by simp [regMask, (highHalf (dOf r)).isLt])
    simp [State.writeReg, State.writeD, State.isWritten_writeS, hl, hh]

theorem State.isWritten_congr {s t : State} (h : t.written = s.written) (r : BitVec 5) :
    t.isWritten r = s.isWritten r := by
  simp [State.isWritten, h]

section
variable {s u : State}

theorem SameCore.refl (s : State) : SameCore s s := ⟨⟨rfl, rfl, rfl, rfl, rfl, rfl, rfl, rfl⟩, rfl, rfl, rfl, rfl⟩

theorem SameCore.complete (h : SameCore s u) (c : Cdp) (e : Effect) (fl : Cumulative) :
    SameCore s (u.complete c e fl) where
  env := by obtain ⟨⟨_, _, _, _, _, _, _, _⟩, _, _, _, _⟩ := h; constructor <;> simpa
  arm := by simpa using h.arm
  cpsr := by simpa using h.cpsr
  mem := by simpa using h.mem
  stored := by simpa using h.stored

theorem SameCore.bounce (h : SameCore s u) (word : Word) (c : Cdp) (sh : Shape) (w : Word) (k : Nat) (b : Bool)
    (fl : BounceFlags) : SameCore s (u.bounce word c sh w k b fl) where
  env := by obtain ⟨⟨_, _, _, _, _, _, _, _⟩, _, _, _, _⟩ := h; constructor <;> simpa
  arm := by simpa using h.arm
  cpsr := by simpa using h.cpsr
  mem := by simpa using h.mem
  stored := by simpa using h.stored

end

/-- What the iterations of `c` under the FPSCR and the shape of `s` leave unchanged in `u`. -/
structure IterationFrame (s : State) (c : Cdp) (u : State) : Prop where
  core : SameCore s u
  pc : u.pc = s.pc
  regs : ∀ r : BitVec 5, (c.dstMasks (c.shape s.fpscr) s.fpscr 0 (c.shape s.fpscr).iters).getLsbD r.toNat = false →
    u.readS r = s.readS r ∧ u.isWritten r = s.isWritten r
  en : Fpexc.en u.fpexc = Fpexc.en s.fpexc
  fp2v : Fpexc.fp2v u.fpexc = Fpexc.fp2v s.fpexc
  fpinst2 : u.fpinst2 = s.fpinst2
  flags : FlagsKept s.fpscr u.fpscr
  nzcv : c.op.writesD = true → u.fpscr &&& nzcvMask = s.fpscr &&& nzcvMask

section
variable {s u : State} {c : Cdp}

theorem IterationFrame.refl (s : State) (c : Cdp) : IterationFrame s c s :=
  ⟨.refl s, rfl, fun _ _ => ⟨rfl, rfl⟩, rfl, rfl, rfl, .refl _, fun _ => rfl⟩

theorem IterationFrame.draws (h : IterationFrame s c u) (n : Nat) : IterationFrame s c { u with draws := n } :=
  { h with core := { h.core with env := { h.core.env with } } }

/-- A completed iteration writes no register outside its mask. -/
theorem State.complete_regs (u : State) (c : Cdp) (p : Prec) (w : Word) (x : Source) {r : BitVec 5}
    (h : c.dstMask.getLsbD r.toNat = false) :
    (u.complete c (iterH c.op p w x).2.1 (iterH c.op p w x).2.2).readS r = u.readS r ∧
      (u.complete c (iterH c.op p w x).2.1 (iterH c.op p w x).2.2).isWritten r = u.isWritten r := by
  cases hw : c.op.writesD with
  | false =>
    obtain ⟨b, hb⟩ := iterH_nzcv hw p w x
    rw [hb]
    exact ⟨rfl, rfl⟩
  | true =>
    obtain ⟨v, hv⟩ := iterH_reg hw p w x
    rw [hv]
    have hr : ¬ (regMask c.dPrec c.d).getLsbD r.toNat = true := by simpa [Cdp.dstMask, hw] using h
    exact ⟨State.readS_writeReg_other _ _ _ _ _ hr, State.isWritten_writeReg_other _ _ _ _ _ hr⟩

theorem IterationFrame.complete (h : IterationFrame s c u) {k : Nat} (hk : k < (c.shape s.fpscr).iters) (x : Source) :
    IterationFrame s c (u.complete (c.at (c.shape s.fpscr) s.fpscr k) (iterH c.op c.p s.fpscr x).2.1
      (iterH c.op c.p s.fpscr x).2.2) where
  core := h.core.complete ..
  pc := by simpa using h.pc
  regs r hr := by
    obtain ⟨hread, hmark⟩ := u.complete_regs (c.at (c.shape s.fpscr) s.fpscr k) c.p s.fpscr x
      (dstMask_of_dstMasks hr hk)
    obtain ⟨hreadS, hmarkS⟩ := h.regs r hr
    exact ⟨hread.trans hreadS, hmark.trans hmarkS⟩
  en := by simpa using h.en
  fp2v := by simpa using h.fp2v
  fpinst2 := by simpa using h.fpinst2
  flags := h.flags.complete ..
  nzcv hw := by
    obtain ⟨v, hv⟩ := iterH_reg hw c.p s.fpscr x
    rw [hv, State.complete, State.raise_fpscr, raise_and_mask (Cumulative.word_nzcv _), State.writeReg_fpscr]
    exact h.nzcv hw

theorem IterationFrame.bounce (h : IterationFrame s c u) (word : Word) (sh : Shape) (w : Word) (k : Nat) (b : Bool)
    (fl : BounceFlags) : IterationFrame s c (u.bounce word c sh w k b fl) where
  core := h.core.bounce ..
  pc := by simpa using h.pc
  regs r hr := by
    obtain ⟨hreadS, hmarkS⟩ := h.regs r hr
    exact ⟨(State.readS_congr (by simp) r).trans hreadS, (State.isWritten_congr (by simp) r).trans hmarkS⟩
  en := by simpa [Fpexc.bounce_en] using h.en
  fp2v := by simpa [Fpexc.bounce_fp2v] using h.fp2v
  fpinst2 := by simpa using h.fpinst2
  flags := by simpa using h.flags.raise _
  nzcv hw := by
    rw [State.bounce_fpscr, raise_and_mask (Cumulative.word_nzcv _)]
    exact h.nzcv hw

end

theorem State.runIterations_frame (s : State) (word : Word) (c : Cdp) :
    IterationFrame s c (s.runIterations word c (c.shape s.fpscr) s.fpscr (c.shape s.fpscr).iters) :=
  State.runIterations_keeps word c _ _ (fun _ n h => h.draws n) (fun _ _ x hk h => h.complete hk x)
    (fun _ _ _ _ h => h.bounce ..) _ (Nat.le_refl _) s (.refl s c)

/-- Settles O26: the frame of the iterations; the instruction then advances. -/
theorem arithmeticFrame : Obligations.ArithmeticFrame := by
  intro s i c hrun
  have h := s.runIterations_frame (encode i) c
  refine ⟨_, exec_runs hrun, { h.core with env := { h.core.env with } }, ?_, h.regs, h.en, h.fp2v, h.fpinst2,
    h.flags.control, h.flags.cumulative, h.nzcv⟩
  rw [State.runCdp, State.advance_pc, h.pc]

/-! ### A vector that bounces (60_exceptions.md R415, R423) -/

/-- The last iteration of a run is the completion of one iteration more. -/
theorem State.vectorRun_succ (s : State) (c : Cdp) (w : Word) (k n : Nat) :
    s.vectorRun c w k (n + 1) =
      (s.vectorRun c w k n).complete (c.at (c.shape w) w (k + n))
        (iterH c.op c.p w ((s.vectorRun c w k n).source (c.at (c.shape w) w (k + n)))).2.1
        (iterH c.op c.p w ((s.vectorRun c w k n).source (c.at (c.shape w) w (k + n)))).2.2 := by
  induction n generalizing s k with
  | zero => rfl
  | succ n ih =>
    rw [State.vectorRun, ih, Nat.add_right_comm k 1 n, Nat.add_assoc k n 1]
    rfl

/-- Iterations with no condition complete; the run goes on from what they leave. -/
theorem State.runIterations_of_clear (s : State) (word : Word) (c : Cdp) (w : Word) (k : Nat)
    (hk : k ≤ (c.shape w).iters)
    (hclear : ∀ j, j < k →
      (iterH c.op c.p w ((s.vectorRun c w 0 j).source (c.at (c.shape w) w j))).1.clear = true) :
    s.runIterations word c (c.shape w) w (c.shape w).iters =
      (s.vectorRun c w 0 k).runIterations word c (c.shape w) w ((c.shape w).iters - k) := by
  induction k with
  | zero => rfl
  | succ k ih =>
    have hindex : (c.shape w).iters - ((c.shape w).iters - (k + 1) + 1) = k := by omega
    have hleft : (c.shape w).iters - k = (c.shape w).iters - (k + 1) + 1 := by omega
    rw [ih (by omega) (fun j hj => hclear j (by omega)), hleft,
      State.runIterations_clear _ _ _ _ _ _ (by rw [hindex]; exact hclear k (by omega)), hindex,
      State.vectorRun_succ, Nat.zero_add]

/-- An iteration that must bounce ends the run. -/
theorem State.runIterations_must (u : State) (word : Word) (c : Cdp) (sh : Shape) (w : Word) (k : Nat)
    (hk : k < sh.iters) (h : (iterH c.op c.p w (u.source (c.at sh w k))).1.must = true) :
    ∃ n fl, u.runIterations word c sh w (sh.iters - k) =
      State.bounce { u with draws := n } word c sh w k (iterH c.op c.p w (u.source (c.at sh w k))).1.inSub fl := by
  obtain ⟨n, hn⟩ := u.decideBounce_snd (iterH c.op c.p w (u.source (c.at sh w k))).1
  have hsome : ∃ fl, (u.decideBounce (iterH c.op c.p w (u.source (c.at sh w k))).1).1 = some fl := by
    simp [State.decideBounce, h]
  obtain ⟨fl, hfl⟩ := hsome
  have hindex : sh.iters - (sh.iters - k - 1 + 1) = k := by omega
  refine ⟨n, fl, ?_⟩
  rw [show sh.iters - k = sh.iters - k - 1 + 1 by omega]
  simp only [State.runIterations, hindex, hfl, hn]

/-- No Input Subnormal exception without IDE (40_cdp_common.md R185). -/
theorem iterH_inSub (o : CdpOp) (p : Prec) {w : Word} (x : Source) (h : Fpscr.ide w = false) :
    (iterH o p w x).1.inSub = false := by
  cases o <;>
    simp [iterH, addH, mulH, macH, divH, sqrtH, cvtH, fromIntH, toIntH, cmpH, copyH, sourceCheck, Check.threshold,
      Check.addInvalid, h]

theorem Fpscr.raise_none (w : Word) : Fpscr.raise w {} = w := by
  rw [Fpscr.raise, show Cumulative.word {} = 0#32 from rfl, BitVec.or_zero]

theorem State.vectorRun_frame (s : State) (c : Cdp) {k : Nat} (hk : k ≤ (c.shape s.fpscr).iters) :
    IterationFrame s c (s.vectorRun c s.fpscr 0 k) := by
  induction k with
  | zero => exact .refl s c
  | succ k ih =>
    rw [State.vectorRun_succ, Nat.zero_add]
    exact (ih (by omega)).complete (by omega) _

/-- Settles O29: the first `k` iterations complete, and iteration `k` bounces from what they leave. -/
theorem vectorBounceKeepsEarlierIterations : Obligations.VectorBounceKeepsEarlierIterations := by
  intro s i c k hrun w sh at_ hk hclear hmust hide
  have hframe := (s.vectorRun_frame c (Nat.le_of_lt hk)).draws
  obtain ⟨n, fl, hbounce⟩ := (s.vectorRun c w 0 k).runIterations_must (encode i) c sh w k hk hmust
  have hinSub := iterH_inSub c.op c.p ((s.vectorRun c w 0 k).source (c.at sh w k)) hide
  have hexec : exec i s = .next
      (State.bounce { s.vectorRun c w 0 k with draws := n } (encode i) c sh w k false fl).advance := by
    rw [exec_runs hrun, State.runCdp, s.runIterations_of_clear (encode i) c w k (Nat.le_of_lt hk) hclear,
      hbounce, hinSub]
  have hcore := (hframe n).core.bounce (encode i) c sh w k false fl
  refine ⟨_, hexec, by simp, ?_, by simp [Fpexc.bounce_ex], by simp [Fpexc.bounce_vecitr], by simp, ?_,
    { hcore with env := { hcore.env with } }, ?_⟩
  · simp [State.drawIf_false, Fpscr.raise_none]
  · have hlast : (sh.iters - k == 1) = decide (k + 1 = sh.iters) := by
      rw [Bool.eq_iff_iff, beq_iff_eq, decide_eq_true_iff]
      omega
    simp [hlast]
  · rw [State.advance_pc, State.bounce_pc, (hframe n).pc]

/-! ### A CDP instruction in the exceptional state (60_exceptions.md R421, R426) -/

theorem accessOf_cdp {i : Instr} {c : Cdp} (h : cdpOf i = some c) : accessOf i = .vfp := by
  cases i with
  | fmxr | fmrx | fmstat => cases h
  | _ => rfl

/-- An admitted CDP instruction is issued. -/
theorem exec_admitted {i : Instr} {c : Cdp} {s : State} (h : cdpOf i = some c) (ha : s.Admits i) :
    exec i s = issueCdp (encode i) c s := by
  obtain ⟨hc, hacc, hwf⟩ := ha
  rw [accessOf_cdp h] at hacc
  rw [exec_cdpOf h, execCdp, checked_ready hc hacc hwf]

theorem exceptional_of_opened {s : State} {dst src : Word} {slot : Bool} (h : s.win = .opened dst src slot) :
    s.exceptional = true := by
  simp [State.exceptional, h]

section
variable {word : Word} {c : Cdp} {s : State} {dst src : Word} {slot : Bool}

theorem issueCdp_running (h : s.exceptional = false) : issueCdp word c s = startCdp word c s := by
  simp [issueCdp, h]

variable (hw : s.win = .opened dst src slot)
include hw

theorem issueCdp_refused {r : Refusal} (hr : c.refusal s.fpscr = some r) : issueCdp word c s = .refused r := by
  simp [issueCdp, exceptional_of_opened hw, hw, hr]

theorem issueCdp_hazard (hr : c.refusal s.fpscr = none) (h : slot = false ∨ c.noHazard s.fpscr (dst ||| src) = false) :
    issueCdp word c s = trigger (startCdp word c) s := by
  have hb : (slot && c.noHazard s.fpscr (dst ||| src)) = false := by
    rcases h with h | h <;> simp [h]
  simp [issueCdp, exceptional_of_opened hw, hw, hr, hb]

theorem issueCdp_slot (hr : c.refusal s.fpscr = none) (hs : slot = true)
    (hh : c.noHazard s.fpscr (dst ||| src) = true) :
    issueCdp word c s =
      if Config.freeBool s.draws then .next (s.draw.2.capture word) else trigger (startCdp word c) s.draw.2 := by
  simp [issueCdp, exceptional_of_opened hw, hw, hr, hs, hh, State.draw]

end

theorem trigger_hardware {s : State} (h : s.level = .hardware) (go : State → Result) :
    trigger go s = .next s.takeUndefined := by
  simp [trigger, h]

/-- Settles O33: the cases of R426, and both values of the free choice. -/
theorem pretriggerCapture : Obligations.PretriggerCapture := by
  intro s i c dst src slot hl ha hc hw
  rw [exec_admitted hc ha]
  refine ⟨fun r hr => issueCdp_refused hw hr, fun hr => ⟨fun h => ?_, fun hs hh hd => ?_, fun hs hh hd => ?_⟩⟩
  · rw [issueCdp_hazard hw hr h, trigger_hardware hl]
  · rw [issueCdp_slot hw hr hs hh, hd, if_neg nofun]
    exact trigger_hardware (s := s.draw.2) hl _
  · rw [issueCdp_slot hw hr hs hh, if_pos hd]
    rfl

/-! ### LEN, STRIDE and the bank (40_cdp_common.md R168) -/

/-- A field inside the mask does not see the bits outside. -/
theorem field_congr_of_mask {v w m : Word} (h : v &&& m = w &&& m) {lo n : Nat} (hm : field m lo n = BitVec.allOnes n) :
    field v lo n = field w lo n := by
  have hsplit (x : Word) : field x lo n = field (x &&& m) lo n := by
    rw [field, field, BitVec.extractLsb'_and, show m.extractLsb' lo n = BitVec.allOnes n from hm, BitVec.and_allOnes]
  rw [hsplit v, hsplit w, h]

/-- What is refused depends on LEN and STRIDE alone. -/
theorem refusal_congr {v w : Word} (h : FlagsKept w v) (c : Cdp) : c.refusal v = c.refusal w := by
  have hlen : Fpscr.len v = Fpscr.len w := congrArg BitVec.toNat (field_congr_of_mask h.control (by decide))
  have hstride : Fpscr.stride v = Fpscr.stride w := field_congr_of_mask h.control (by decide)
  have hlegal : legalLenStride v = legalLenStride w := by rw [legalLenStride, legalLenStride, hlen, hstride]
  have hshape : c.shape v = c.shape w := by rw [Cdp.shape, Cdp.shape, hlen]
  have hstep : strideOf v = strideOf w := by rw [strideOf, strideOf, hstride]
  have hwraps (sh : Shape) : c.wraps sh v = c.wraps sh w := by rw [Cdp.wraps, Cdp.wraps, hstep]
  have hoverlaps (sh : Shape) : c.overlaps sh v = c.overlaps sh w := by
    simp only [Cdp.overlaps, operandMask, hstep]
  rw [Cdp.refusal, Cdp.refusal, hlegal, hshape, hwraps, hoverlaps]

theorem archIterations_refused {s : State} {c : Cdp} {sh : Shape} {w : Word} {k left : Nat} {r : Refusal} :
    s.archIterations c sh w k left ≠ .refused r := by
  induction left generalizing s k with
  | zero => exact nofun
  | succ rest ih =>
    rw [State.archIterations]
    split
    · exact ih
    · exact nofun

theorem thenDo_refused {r : Result} {f : State → Result} {e : Refusal} (h : thenDo r f = .refused e) :
    r = .refused e ∨ ∃ u, r = .next u ∧ f u = .refused e := by
  cases r with
  | next u => exact .inr ⟨u, rfl, h⟩
  | fault => cases h
  | refused => exact .inl h

/-- The support code refuses what it cannot complete, and nothing else (60_exceptions.md R449). -/
theorem supportCode_refused {s : State} {r : Refusal} (h : s.supportCode = .refused r) : r = .supportCode := by
  have hexceptional {u : State} {word : Word} {n : Nat} (hu : u.completeExceptional word n = .refused r) :
      r = .supportCode := by
    unfold State.completeExceptional at hu
    split at hu
    · exact (Host.Outcome.refused.inj hu).symm
    · exact absurd hu archIterations_refused
  have hcaptured {u : State} {word : Word} (hu : u.completeCaptured word = .refused r) : r = .supportCode := by
    unfold State.completeCaptured at hu
    split at hu
    · exact (Host.Outcome.refused.inj hu).symm
    · split at hu
      · exact (Host.Outcome.refused.inj hu).symm
      · exact absurd hu archIterations_refused
  unfold State.supportCode at h
  rcases thenDo_refused h with h | ⟨u, -, h⟩
  · exact hexceptional h
  · rcases thenDo_refused h with h | ⟨_, -, h⟩
    · split at h
      · exact hcaptured h
      · cases h
    · cases h

theorem startCdp_refused_iff {word : Word} {c : Cdp} {s : State} {r : Refusal} :
    startCdp word c s = .refused r ↔ c.refusal s.fpscr = some r := by
  cases h : c.refusal s.fpscr <;> simp [startCdp, h]

/-- A trigger whose vector is legal is not refused for its vector, not after the support code either. -/
theorem trigger_startCdp_refused {word : Word} {c : Cdp} {s : State} (hr : c.refusal s.fpscr = none) {r : Refusal}
    (h : trigger (startCdp word c) s = .refused r) : r = .supportCode := by
  unfold trigger at h
  split at h
  · cases h
  · rcases thenDo_refused h with h | ⟨u, hu, h⟩
    · exact supportCode_refused h
    · rw [startCdp_refused_iff, refusal_congr (supportCode_flagsKept (.refl _) hu), hr] at h
      cases h

/-- A CDP instruction that is no trigger of a closed window is refused as wrapping by `Cdp.refusal` alone. -/
theorem issueCdp_vectorWraps_iff {word : Word} {c : Cdp} {s : State} (hn : s.NoClosedTrigger) :
    issueCdp word c s = .refused .vectorWraps ↔ c.refusal s.fpscr = some .vectorWraps := by
  cases he : s.exceptional with
  | false => rw [issueCdp_running he, startCdp_refused_iff]
  | true =>
    have hopen : s.win ≠ .closed := hn.resolve_left (by simp [he])
    cases hw : s.win with
    | closed => exact absurd hw hopen
    | opened dst src slot =>
      cases hr : c.refusal s.fpscr with
      | some r => simp [issueCdp_refused hw hr]
      | none =>
        refine iff_of_false (fun h => ?_) nofun
        by_cases hs : slot = false ∨ c.noHazard s.fpscr (dst ||| src) = false
        · rw [issueCdp_hazard hw hr hs] at h
          cases trigger_startCdp_refused hr h
        · simp only [not_or, Bool.not_eq_false] at hs
          rw [issueCdp_slot hw hr hs.1 hs.2] at h
          split at h
          · cases h
          · cases trigger_startCdp_refused (s := s.draw.2) hr h

/-- A vector steps through LEN + 1 iterations (40_cdp_common.md R161). -/
theorem shape_vector {c : Cdp} {w : Word} (hv : c.op.canVector = true) (hlen : Fpscr.len w ≠ 0)
    (hb : inBank0 c.p c.d = false) : (c.shape w).stepsDN = true ∧ (c.shape w).iters = Fpscr.len w + 1 := by
  cases hm : inBank0 c.p c.m <;> simp [Cdp.shape, hv, hlen, hb, hm]

theorem refusal_vectorWraps_iff {c : Cdp} {w : Word} (hl : legalLenStride w = true)
    (hs : (c.shape w).stepsDN = true) : c.refusal w = some .vectorWraps ↔ c.wraps (c.shape w) w = true := by
  cases hc : c.wraps (c.shape w) w <;> simp [Cdp.refusal, hl, hs, hc]

/-- Settles O10: of a vector with legal LEN and STRIDE `Cdp.wraps` decides, and no support code changes LEN or STRIDE
before it does. -/
theorem vectorThatWrapsIsRefused : Obligations.VectorThatWrapsIsRefused := by
  intro i c s hc hwf hcond ha hn hl hv hlen hb
  obtain ⟨hsteps, hiters⟩ := shape_vector hv hlen hb
  rw [exec_admitted hc ⟨hcond, (accessOf_cdp hc).symm ▸ ha, hwf⟩, issueCdp_vectorWraps_iff hn,
    refusal_vectorWraps_iff hl hsteps, Cdp.wraps, hiters]
  exact decide_eq_true_iff

/-! ### What one instruction can do at level H (60_exceptions.md R421 to R427, R454) -/

/-- From `s` to `t` nothing that only the gate, the arithmetic and FMXR change has changed. -/
structure ControlKept (s t : State) : Prop where
  fpexc : t.fpexc = s.fpexc
  fpinst : t.fpinst = s.fpinst
  cpAccess : t.cpAccess = s.cpAccess

/-- The next states of an instruction at level H, by what brings them about. -/
inductive HardwareStep (i : Instr) (s : State) : State → Prop where
  /-- The condition failed. -/
  | cancelled (hc : condPassed i.cond s.cpsr = false) : HardwareStep i s s.advance
  /-- Denied, or the trigger instruction; the window may have cost a free value. -/
  | trapped (n : Nat) : HardwareStep i s (State.takeUndefined { s with draws := n })
  /-- A CDP instruction outside the exceptional state. -/
  | ran (c : Cdp) (hi : cdpOf i = some c) (he : s.exceptional = false) : HardwareStep i s (s.runCdp (encode i) c)
  /-- A CDP instruction in the pretrigger slot. -/
  | captured (c : Cdp) (hi : cdpOf i = some c) (hw : s.win ≠ .closed) : HardwareStep i s (s.draw.2.capture (encode i))
  /-- A load, a store, a move, FMRX or FMSTAT. -/
  | transferred (t : State) (hi : cdpOf i = none) (h : ControlKept s t) : HardwareStep i s t
  /-- FMXR; an access to FPSCR in the exceptional state is the trigger instead. -/
  | wroteSys (c : Cond) (reg : SysReg) (rd : ArmReg) (sbz : BitVec 7) (v : Word) (t : State)
      (hi : i = .fmxr c reg rd sbz) (ha : s.accessible (.sys reg) = true)
      (hex : reg = .fpscr → Fpexc.ex s.fpexc = false) (ht : s.closeWin.writeSys reg v = some t) :
      HardwareStep i s t.advance

section
variable {i : Instr} {s t : State}

theorem trigger_next_hardware {go : State → Result} (hl : s.level = .hardware) (h : trigger go s = .next t) :
    t = s.takeUndefined := by
  rw [trigger_hardware hl] at h
  exact (Host.Outcome.next.inj h).symm

theorem ControlKept.load {regs : List (BitVec 5)} {start : Word} {words : Nat} {rn : ArmReg} {wb : Option Word}
    (h : s.load regs start words rn wb = .next t) : ControlKept s t := by
  obtain ⟨-, -, rfl⟩ := State.load_next h
  constructor <;> simp

theorem ControlKept.store {regs : List (BitVec 5)} {start : Word} {words : Nat} {rn : ArmReg} {wb : Option Word}
    (h : s.store regs start words rn wb = .next t) : ControlKept s t := by
  obtain ⟨-, -, rfl⟩ := State.store_next h
  constructor <;> simp

variable (hl : s.level = .hardware)
include hl

theorem HardwareStep.of_cdp {c : Cdp} (hi : cdpOf i = some c) (h : execCdp i c s = .next t) : HardwareStep i s t := by
  rcases checked_next h with ⟨hc, rfl⟩ | ⟨-, -, rfl⟩ | ⟨-, -, -, h⟩
  · exact .cancelled hc
  · exact .trapped s.draws
  rcases issueCdp_next h with ⟨he, -, rfl⟩ | ⟨-, u, rfl | rfl, htrap⟩ | ⟨-, hw, -, rfl⟩
  · exact .ran c hi he
  · obtain rfl := trigger_next_hardware hl htrap; exact .trapped u.draws
  · obtain rfl := trigger_next_hardware (s := s.draw.2) hl htrap; exact .trapped _
  · exact .captured c hi hw

/-- A load, a store or a move that runs, in the state itself or after the draw of the open window. -/
theorem HardwareStep.of_transfer {writes reads : Word} {go : State → Result} (hi : cdpOf i = none)
    (hgo : ∀ u t, go u = .next t → ControlKept u t)
    (h : checked i .vfp (issueTransfer writes reads go) s = .next t) : HardwareStep i s t := by
  rcases checked_next h with ⟨hc, rfl⟩ | ⟨-, -, rfl⟩ | ⟨-, -, -, h⟩
  · exact .cancelled hc
  · exact .trapped s.draws
  rcases issueTransfer_next h with ⟨-, h⟩ | ⟨-, u, rfl | rfl, htrap⟩ | ⟨-, -, h⟩
  · exact .transferred t hi (hgo _ _ h)
  · obtain rfl := trigger_next_hardware hl htrap; exact .trapped u.draws
  · obtain rfl := trigger_next_hardware (s := s.draw.2) hl htrap; exact .trapped _
  · obtain ⟨hfpexc, hfpinst, hcp⟩ := hgo _ _ h; exact .transferred t hi ⟨hfpexc, hfpinst, hcp⟩

theorem HardwareStep.of_move {writes reads : Word} {f : State → State} (hi : cdpOf i = none)
    (hf : ∀ u, ControlKept u (f u).advance)
    (h : checked i .vfp (issueTransfer writes reads (fun u => .next (f u).advance)) s = .next t) :
    HardwareStep i s t :=
  .of_transfer hl hi (fun u _ hu => Host.Outcome.next.inj hu ▸ hf u) h

/-- A system register access: cancelled, denied, the trigger, or carried out with the window closed. -/
theorem HardwareStep.of_sysAccess {reg : SysReg} {f : State → Result}
    (hf : s.accessible (.sys reg) = true → (reg = .fpscr → Fpexc.ex s.fpexc = false) →
      f s.closeWin = .next t → HardwareStep i s t)
    (h : sysAccess i reg f s = .next t) : HardwareStep i s t := by
  rcases checked_next h with ⟨hc, rfl⟩ | ⟨-, -, rfl⟩ | ⟨-, ha, -, h⟩
  · exact .cancelled hc
  · exact .trapped s.draws
  unfold issueSerial at h
  split at h
  · obtain rfl := trigger_next_hardware (s := s.closeWin) hl h; exact .trapped s.draws
  next hb => exact hf ha (by simpa using hb) h

/-- One step of an instruction at level H is one of the six. -/
theorem exec_next_hardware (h : exec i s = .next t) : HardwareStep i s t := by
  cases i
  case fmxr c reg rd sbz =>
    refine .of_sysAccess hl (fun ha hex hf => ?_) h
    cases hv : s.closeWin.writeSys reg (s.closeWin.readArm rd) with
    | none => simp [hv] at hf
    | some u =>
      simp only [hv, Host.Outcome.next.injEq] at hf
      exact hf ▸ .wroteSys c reg rd sbz _ u rfl ha hex hv
  case fmrx c rd reg sbz =>
    refine .of_sysAccess hl (fun _ _ hf => ?_) h
    obtain rfl := Host.Outcome.next.inj hf
    obtain ⟨n, hn⟩ := s.closeWin.readSys_snd reg
    exact .transferred _ rfl (by rw [hn]; constructor <;> simp)
  case fmstat =>
    refine .of_sysAccess hl (fun _ _ hf => ?_) h
    obtain rfl := Host.Outcome.next.inj hf
    exact .transferred _ rfl ⟨rfl, rfl, rfl⟩
  case fmsr | fmdlr | fmdhr | fmdrr | fmsrr | fmrs | fmrdl | fmrdh | fmrrd | fmrrs =>
    exact .of_move hl rfl (fun _ => by constructor <;> simp) h
  case flds | fldd | fldmsIa | fldmsIaWb | fldmsDbWb | fldmdIa | fldmdIaWb | fldmdDbWb | fldmxIa | fldmxIaWb |
      fldmxDbWb => exact .of_transfer hl rfl (fun _ _ hu => .load hu) h
  case fsts | fstd | fstmsIa | fstmsIaWb | fstmsDbWb | fstmdIa | fstmdIaWb | fstmdDbWb | fstmxIa | fstmxIaWb |
      fstmxDbWb => exact .of_transfer hl rfl (fun _ _ hu => .store hu) h
  all_goals exact .of_cdp hl rfl h

end

/-- A CDP instruction that runs keeps FP2V: only a capture sets it (10_state.md R69). -/
theorem State.runCdp_fp2v (s : State) (word : Word) (c : Cdp) :
    Fpexc.fp2v (s.runCdp word c).fpexc = Fpexc.fp2v s.fpexc :=
  (s.runIterations_frame word c).fp2v

theorem not_exceptional {s : State} (h : s.exceptional = false) : Fpexc.ex s.fpexc = false ∧ s.win = .closed := by
  simpa [State.exceptional] using h

/-- But for FMXR to FPEXC, FP2V changes by a capture only, which sets it. -/
theorem HardwareStep.fp2v {i : Instr} {s t : State} (h : HardwareStep i s t)
    (hi : ∀ c rd sbz, i ≠ .fmxr c .fpexc rd sbz) :
    Fpexc.fp2v t.fpexc = Fpexc.fp2v s.fpexc ∨
      (∃ c, cdpOf i = some c) ∧ s.win ≠ .closed ∧ t = s.draw.2.capture (encode i) := by
  cases h with
  | cancelled | trapped => exact .inl rfl
  | ran c => exact .inl (s.runCdp_fp2v _ c)
  | captured c hc hw => exact .inr ⟨⟨c, hc⟩, hw, rfl⟩
  | transferred _ _ hkept => exact .inl (by rw [hkept.fpexc])
  | wroteSys c reg rd sbz v u hfmxr _ _ hu =>
    have hne : reg ≠ .fpexc := fun hr => hi c rd sbz (hr ▸ hfmxr)
    have hfpexc : u.fpexc = s.fpexc := (writeSys_fpexc_of_ne hu hne).trans s.closeWin_fpexc
    exact .inl (by rw [State.advance_fpexc, hfpexc])

/-- Settles O52: the captured instruction is the only one that sets FP2V, and an instruction in the open window that is
not captured is the trigger. -/
theorem capturedFlagIsNeverCleared : Obligations.CapturedFlagIsNeverCleared := by
  intro s t i hl ht hi
  have hstep := exec_next_hardware hl ht
  refine ⟨fun hset => ?_, fun hset => ?_, fun c hc hw ha => ?_⟩
  · rcases hstep.fp2v hi with h | ⟨-, -, rfl⟩
    · exact h.trans hset
    · exact Fpexc.setFp2v_fp2v _
  · rcases hstep.fp2v hi with h | ⟨⟨c, hc⟩, hw, rfl⟩
    · exact .inl (h.symm.trans hset)
    · exact .inr ⟨c, hc, hw, rfl, rfl⟩
  · obtain ⟨hcond, -, -⟩ := ha
    cases hstep with
    | cancelled hcancel => rw [hcond] at hcancel; cases hcancel
    | trapped n => exact .inr rfl
    | ran _ _ he => exact absurd (not_exceptional he).2 hw
    | captured => exact .inl ⟨Fpexc.setFp2v_fp2v _, rfl, rfl⟩
    | transferred _ hnone => rw [hc] at hnone; cases hnone
    | wroteSys _ _ _ _ _ _ hfmxr => subst hfmxr; cases hc

/-- Settles O53: User mode may write no register of the exceptional state, and an access to FPSCR is the trigger. -/
theorem userModeCannotLeaveExceptionalState : Obligations.UserModeCannotLeaveExceptionalState := by
  intro s t i hl hm hex ht
  cases exec_next_hardware hl ht with
  | cancelled | trapped => exact ⟨hex, rfl, rfl, rfl⟩
  | ran _ _ he => rw [(not_exceptional he).1] at hex; cases hex
  | captured => exact ⟨(Fpexc.setFp2v_ex _).trans hex, Fpexc.setFp2v_en _, rfl, rfl⟩
  | transferred _ _ hkept =>
    obtain ⟨hfpexc, hfpinst, hcp⟩ := hkept
    exact ⟨by rw [hfpexc, hex], by rw [hfpexc], hfpinst, hcp⟩
  | wroteSys _ reg _ _ _ u _ ha _ hu =>
    have hreg : Access.sys reg ∉ [.sys .fpexc, .sys .fpinst, .sys .fpinst2] := fun hmem => by
      rw [accessible_user hm hmem] at ha
      cases ha
    have hne : reg ≠ .fpexc ∧ reg ≠ .fpinst := by
      constructor <;> rintro rfl <;> exact hreg (by decide)
    have hfpexc : u.fpexc = s.fpexc := (writeSys_fpexc_of_ne hu hne.1).trans s.closeWin_fpexc
    have hfpinst : u.fpinst = s.fpinst := (writeSys_fpinst_of_ne hu hne.2).trans s.closeWin_fpinst
    have hcp : u.cpAccess = s.cpAccess := (writeSys_cpAccess hu).trans s.closeWin_cpAccess
    exact ⟨by rw [State.advance_fpexc, hfpexc, hex], by rw [State.advance_fpexc, hfpexc], hfpinst, hcp⟩

end Sys2Proof.Machine

/-! Proofs, memory: what a load and a store do to the registers and to memory, when they stop and when they are refused
(20_memory.md R91 to R111; 44_ls_memory.md R311 to R329; 60_exceptions.md R438). -/

namespace Sys2Proof.Machine

/-! ### Register lists (44_ls_memory.md R320) -/

theorem listCheckS_eq_none_iff {d : SReg} {n : BitVec 8} :
    listCheckS d n = none ↔ 1 ≤ n.toNat ∧ n.toNat ≤ 32 ∧ d.toNat + n.toNat ≤ 32 := by
  simp [listCheckS]

theorem listCheckD_eq_none_iff {d : DReg} {n : BitVec 7} :
    listCheckD d n = none ↔ 1 ≤ n.toNat ∧ n.toNat ≤ 16 ∧ d.toNat + n.toNat ≤ 16 := by
  simp [listCheckD]

/-- Registers that are fewer than a register number can name are all different. -/
theorem add_ofNat_inj {w : Nat} (d : BitVec w) {j k : Nat} (hj : j < 2 ^ w) (hk : k < 2 ^ w) :
    d + BitVec.ofNat w j = d + BitVec.ofNat w k ↔ j = k := by
  rw [BitVec.add_right_inj, ← BitVec.toNat_inj, BitVec.toNat_ofNat, BitVec.toNat_ofNat, Nat.mod_eq_of_lt hj,
    Nat.mod_eq_of_lt hk]

theorem sList_nodup (d : SReg) {n : Nat} (hn : n ≤ 32) : (sList d n).Nodup := by
  refine List.Nodup.map_on (fun j hj k hk h => ?_) List.nodup_range
  rw [List.mem_range] at hj hk
  exact (add_ofNat_inj d (by omega) (by omega)).mp h

theorem mem_dList {big : Bool} {d : DReg} {n : Nat} {r : BitVec 5} :
    r ∈ dList big d n ↔ ∃ k < n, r = lowHalf (d + BitVec.ofNat 4 k) ∨ r = highHalf (d + BitVec.ofNat 4 k) := by
  cases big <;> simp [dList, or_comm]

theorem dList_nodup (big : Bool) (d : DReg) {n : Nat} (hn : n ≤ 16) : (dList big d n).Nodup := by
  refine List.nodup_flatMap.mpr ⟨fun j _ => ?halves, ?doubles⟩
  case halves =>
    cases big <;> simp [lowHalf_ne_highHalf, Ne.symm (lowHalf_ne_highHalf _ _)]
  case doubles =>
    refine List.nodup_range.imp_of_mem fun {j k} hj hk hjk => ?_
    rw [List.mem_range] at hj hk
    have hne : d + BitVec.ofNat 4 j ≠ d + BitVec.ofNat 4 k :=
      fun h => hjk ((add_ofNat_inj d (by omega) (by omega)).mp h)
    cases big <;>
      simp [Function.onFun, List.disjoint_left, lowHalf_injective, highHalf_injective, hne, lowHalf_ne_highHalf,
        Ne.symm (lowHalf_ne_highHalf _ _)]

/-- A well-formed load names no register twice. -/
theorem State.loadOf_nodup {s : State} {i : Instr} {f : Transfer} (hf : s.loadOf i = some f) (hi : i.WellFormed) :
    f.regs.Nodup := by
  cases i
  case flds => cases hf; exact List.nodup_singleton _
  case fldd => cases hf; exact dList_nodup _ _ (by omega)
  case fldmsIa => cases hf; exact sList_nodup _ (listCheckS_eq_none_iff.mp hi).2.1
  case fldmsIaWb | fldmsDbWb =>
    cases hf; exact sList_nodup _ (listCheckS_eq_none_iff.mp (Option.or_eq_none_iff.mp hi).1).2.1
  case fldmdIa | fldmxIa => cases hf; exact dList_nodup _ _ (listCheckD_eq_none_iff.mp hi).2.1
  case fldmdIaWb | fldmdDbWb | fldmxIaWb | fldmxDbWb =>
    cases hf; exact dList_nodup _ _ (listCheckD_eq_none_iff.mp (Option.or_eq_none_iff.mp hi).1).2.1
  all_goals cases hf

/-! ### The addresses of a transfer (44_ls_memory.md R321) -/

theorem map_fst_withAddrs (a : Nat) (regs : List (BitVec 5)) : (withAddrs a regs).map Prod.fst = regs := by
  induction regs generalizing a with
  | nil => rfl
  | cons r rest ih => simp [withAddrs, ih]

theorem le_of_mem_withAddrs {a : Nat} {regs : List (BitVec 5)} {w : BitVec 5 × Nat} (hw : w ∈ withAddrs a regs) :
    a ≤ w.2 := by
  induction regs generalizing a with
  | nil => cases hw
  | cons r rest ih =>
    rcases List.mem_cons.mp hw with rfl | hw
    · exact Nat.le_refl _
    · have := ih hw; omega

/-- No two words of a transfer overlap. -/
theorem withAddrs_apart {a : Nat} {regs : List (BitVec 5)} {v w : BitVec 5 × Nat} (hv : v ∈ withAddrs a regs)
    (hw : w ∈ withAddrs a regs) : v = w ∨ v.2 + 4 ≤ w.2 ∨ w.2 + 4 ≤ v.2 := by
  induction regs generalizing a with
  | nil => cases hv
  | cons r rest ih =>
    rcases List.mem_cons.mp hv with rfl | hv <;> rcases List.mem_cons.mp hw with rfl | hw
    · exact .inl rfl
    · exact .inr (.inl (le_of_mem_withAddrs hw))
    · exact .inr (.inr (le_of_mem_withAddrs hv))
    · exact ih hv hw

namespace Transfer

variable {f : Transfer} {v w : BitVec 5 × Nat}

theorem mem_regs_iff {r : BitVec 5} : r ∈ f.regs ↔ ∃ w ∈ f.pairs, w.1 = r := by
  rw [← List.mem_map, pairs, map_fst_withAddrs]

theorem eq_of_reg_eq (hf : f.regs.Nodup) (hv : v ∈ f.pairs) (hw : w ∈ f.pairs) (h : v.1 = w.1) : v = w := by
  refine List.inj_on_of_nodup_map (f := Prod.fst) (l := f.pairs) ?_ hv hw h
  rwa [pairs, map_fst_withAddrs]

theorem eq_of_addr_eq (hv : v ∈ f.pairs) (hw : w ∈ f.pairs) (h : v.2 = w.2) : v = w :=
  (withAddrs_apart hv hw).resolve_right (by omega)

/-- Another word of the transfer than `w` lies below it or above it. -/
theorem apart_of_mem (f : Transfer) (hw : w ∈ f.pairs) : ∀ v ∈ f.pairs, v.2 = w.2 ∨ w.2 + 4 ≤ v.2 ∨ v.2 + 4 ≤ w.2 :=
  fun _ hv => (withAddrs_apart hv hw).imp (congrArg Prod.snd) Or.symm

end Transfer

/-! ### Words loaded and words stored (44_ls_memory.md R323, R327) -/

namespace State

/-- A register after a load: as before if no word is for it, else one of the words for it. -/
theorem readS_loadWords (s : State) (ws : List (BitVec 5 × Nat)) (r : BitVec 5) :
    ((∀ w ∈ ws, w.1 ≠ r) ∧ (s.loadWords ws).readS r = s.readS r) ∨
      ∃ w ∈ ws, w.1 = r ∧ (s.loadWords ws).readS r = s.readWord w.2 := by
  induction ws generalizing s with
  | nil => exact .inl ⟨by simp, rfl⟩
  | cons w rest ih =>
    rcases ih (s.writeS w.1 (s.readWord w.2)) with ⟨hne, hr⟩ | ⟨v, hv, hvr, hr⟩
    · by_cases hw : w.1 = r
      · exact .inr ⟨w, by simp, hw, by rw [loadWords, hr, ← hw, readS_writeS_self]⟩
      · exact .inl ⟨by simpa [hw] using hne, by rw [loadWords, hr, readS_writeS_other _ _ _ _ (Ne.symm hw)]⟩
    · exact .inr ⟨v, by simp [hv], hvr, hr⟩

theorem isWritten_loadWords (s : State) (ws : List (BitVec 5 × Nat)) (r : BitVec 5) :
    (s.loadWords ws).isWritten r = true ↔ (∃ w ∈ ws, w.1 = r) ∨ s.isWritten r = true := by
  induction ws generalizing s with
  | nil => simp [loadWords]
  | cons w rest ih =>
    rw [loadWords, ih, isWritten_writeS]
    by_cases hw : r = w.1
    · simp [hw]
    · simp [hw, Ne.symm hw]

/-- A byte outside every word stored is as before. -/
theorem readByte_storeWords_outside (s : State) {ws : List (BitVec 5 × Nat)} {a : Nat}
    (ha : ∀ w ∈ ws, a < w.2 ∨ w.2 + 4 ≤ a) : (s.storeWords ws).readByte a = s.readByte a := by
  induction ws generalizing s with
  | nil => rfl
  | cons w rest ih =>
    rw [storeWords, ih _ (fun v hv => ha v (by simp [hv])), readByte_writeWord_outside _ _ _ _ (ha w (by simp))]

/-- A word after a store none of whose words overlaps it in part: as before if it is none of them, else a register
stored to it. -/
theorem readWord_storeWords (s : State) {ws : List (BitVec 5 × Nat)} {a : Nat}
    (ha : ∀ w ∈ ws, w.2 = a ∨ a + 4 ≤ w.2 ∨ w.2 + 4 ≤ a) :
    ((∀ w ∈ ws, w.2 ≠ a) ∧ (s.storeWords ws).readWord a = s.readWord a) ∨
      ∃ w ∈ ws, w.2 = a ∧ (s.storeWords ws).readWord a = s.readS w.1 := by
  induction ws generalizing s with
  | nil => exact .inl ⟨by simp, rfl⟩
  | cons w rest ih =>
    rcases ih (s.writeWord w.2 (s.readS w.1)) (fun v hv => ha v (by simp [hv])) with ⟨hne, hr⟩ | ⟨v, hv, hva, hr⟩
    · by_cases hw : w.2 = a
      · exact .inr ⟨w, by simp, hw, by rw [storeWords, hr, ← hw, readWord_writeWord_self]⟩
      · have hap := (ha w (by simp)).resolve_left hw
        exact .inl ⟨by simpa [hw] using hne, by rw [storeWords, hr, readWord_writeWord_other _ _ _ _ hap]⟩
    · exact .inr ⟨v, by simp [hv], hva, by rw [storeWords, hr, readS_writeWord]⟩

/-- The base register written back, and every other one but R15 as before (44_ls_memory.md R322). -/
theorem readArm_writeBase (s : State) (rn : ArmReg) (wb : Option Word) {r : ArmReg} (hr : r ≠ 15#4) :
    (s.writeBase rn wb).readArm r = if r = rn then wb.getD (s.readArm r) else s.readArm r := by
  cases wb with
  | none => simp [writeBase]
  | some v =>
    by_cases hrn : rn = 15#4
    · subst hrn; simp [writeBase, writeArm, hr]
    · simp [writeBase, readArm_writeArm _ _ _ _ hrn]

end State

/-! ### Reaching the transfer (60_exceptions.md R454) -/

/-- Outside the exceptional state a transfer runs at once. -/
theorem issueTransfer_normal {s : State} (h : s.exceptional = false) (writes reads : Word) (go : State → Result) :
    issueTransfer writes reads go s = go s := by
  simp [issueTransfer, h]

/-- Every load is one `State.load` behind the gate, of the registers, addresses and base that `loadOf` names; the free
value of the open window makes no difference to them. -/
theorem exec_of_loadOf {s : State} {i : Instr} {f : Transfer} (hf : s.loadOf i = some f) :
    ∃ go, exec i s = checked i .vfp (issueTransfer (listMask f.regs) 0#32 go) s ∧
      ∀ n, go { s with draws := n } =
        State.load { s with draws := n } f.regs f.start f.words f.rn f.wb := by
  cases i
  case flds | fldd | fldmsIa | fldmsIaWb | fldmsDbWb | fldmdIa | fldmdIaWb | fldmdDbWb | fldmxIa | fldmxIaWb |
      fldmxDbWb => cases hf; exact ⟨_, rfl, fun _ => rfl⟩
  all_goals cases hf

/-- Every store is one `State.store` behind the gate. -/
theorem exec_of_storeOf {s : State} {i : Instr} {f : Transfer} (hf : s.storeOf i = some f) :
    ∃ go, exec i s = checked i .vfp (issueTransfer 0#32 (listMask f.regs) go) s ∧
      ∀ n, go { s with draws := n } =
        State.store { s with draws := n } f.regs f.start f.words f.rn f.wb := by
  cases i
  case fsts | fstd | fstmsIa | fstmsIaWb | fstmsDbWb | fstmdIa | fstmdIaWb | fstmdDbWb | fstmxIa | fstmxIaWb |
      fstmxDbWb => cases hf; exact ⟨_, rfl, fun _ => rfl⟩
  all_goals cases hf

section
variable {s t : State} {i : Instr} {f : Transfer}

theorem exec_load (hf : s.loadOf i = some f) (hi : i.WellFormed) (hs : s.Ready i.cond) :
    exec i s = s.load f.regs f.start f.words f.rn f.wb := by
  obtain ⟨hc, ha, he⟩ := hs
  obtain ⟨go, hexec, hgo⟩ := exec_of_loadOf hf
  rw [hexec, checked_ready hc ha hi, issueTransfer_normal he]
  exact hgo s.draws

theorem exec_store (hf : s.storeOf i = some f) (hi : i.WellFormed) (hs : s.Ready i.cond) :
    exec i s = s.store f.regs f.start f.words f.rn f.wb := by
  obtain ⟨hc, ha, he⟩ := hs
  obtain ⟨go, hexec, hgo⟩ := exec_of_storeOf hf
  rw [hexec, checked_ready hc ha hi, issueTransfer_normal he]
  exact hgo s.draws

/-- A store that completes is of no Unpredictable form. -/
theorem wellFormed_of_exec_store (hf : s.storeOf i = some f) (hs : s.Ready i.cond) (ht : exec i s = .next t) :
    i.WellFormed := by
  obtain ⟨hc, ha, -⟩ := hs
  obtain ⟨go, hexec, -⟩ := exec_of_storeOf hf
  rw [hexec] at ht
  rcases checked_next ht with ⟨hc', -⟩ | ⟨-, ha', -⟩ | ⟨-, -, hi, -⟩
  · rw [hc] at hc'; cases hc'
  · rw [ha] at ha'; cases ha'
  · exact hi

end

/-! ### The address checks (20_memory.md R96, R98, R111) -/

namespace State

variable {s : State} {start : Word} {words : Nat} {stores : List (BitVec 5 × Nat)}

theorem addressRefusal_misaligned (h : start.extractLsb' 0 2 ≠ 0#2) :
    s.addressRefusal start words stores = some .misaligned := by
  simp [addressRefusal, h]

theorem addressRefusal_wrap (h : start.extractLsb' 0 2 = 0#2) (hw : 2 ^ 32 < start.toNat + 4 * words) :
    s.addressRefusal start words stores = some .addressWrap := by
  simp only [addressRefusal, h, bne_self_eq_false, Bool.false_eq_true, if_false, if_pos hw]

theorem addressRefusal_inRange (h : start.extractLsb' 0 2 = 0#2) (hw : start.toNat + 4 * words ≤ 2 ^ 32) :
    s.addressRefusal start words stores =
      if stores.any (fun w => s.fetched.contains w.2) then some .storeToCode else none := by
  simp only [addressRefusal, h, bne_self_eq_false, Bool.false_eq_true, if_false, if_neg (Nat.not_lt.mpr hw)]

theorem any_fetched_iff : stores.any (fun w => s.fetched.contains w.2) = true ↔ ∃ w ∈ stores, w.2 ∈ s.fetched := by
  simp

theorem addressRefusal_eq_none_iff :
    s.addressRefusal start words stores = none ↔
      start.extractLsb' 0 2 = 0#2 ∧ start.toNat + 4 * words ≤ 2 ^ 32 ∧ ∀ w ∈ stores, w.2 ∉ s.fetched := by
  by_cases h : start.extractLsb' 0 2 = 0#2
  · by_cases hw : start.toNat + 4 * words ≤ 2 ^ 32
    · rw [addressRefusal_inRange h hw]
      simp only [ite_eq_right_iff, reduceCtorEq, imp_false, any_fetched_iff, not_exists, not_and, h, hw, true_and]
    · rw [addressRefusal_wrap h (Nat.lt_of_not_le hw)]
      simp only [reduceCtorEq, hw, false_and, and_false]
  · rw [addressRefusal_misaligned h]
    simp only [reduceCtorEq, h, false_and]

/-! ### Where a transfer stops (20_memory.md R104, R105) -/

theorem untilAbort_append {before after : List (BitVec 5 × Nat)} {w : BitVec 5 × Nat}
    (hb : ∀ v ∈ before, s.abortsAt v.2 = false) (hw : s.abortsAt w.2 = true) :
    s.untilAbort (before ++ w :: after) = (before, some w.2) := by
  induction before with
  | nil => simp [untilAbort, hw]
  | cons v rest ih =>
    simp [untilAbort, hb v (by simp), ih (fun x hx => hb x (by simp [hx]))]

/-- No word is left over only if none aborts. -/
theorem untilAbort_snd_eq_none_iff {ws : List (BitVec 5 × Nat)} :
    (s.untilAbort ws).2 = none ↔ ∀ w ∈ ws, s.abortsAt w.2 = false := by
  induction ws with
  | nil => simp [untilAbort]
  | cons w rest ih => cases hw : s.abortsAt w.2 <;> simp [untilAbort, hw, ih]

variable {t : State} {f : Transfer}

/-- A load completes exactly if its address range is reachable. -/
theorem load_eq_next_iff :
    s.load f.regs f.start f.words f.rn f.wb = .next t ↔
      s.Reachable f ∧ t = ((s.loadWords f.pairs).writeBase f.rn f.wb).advance := by
  constructor
  · intro h
    obtain ⟨haddr, habort, ht⟩ := load_next h
    obtain ⟨halign, hrange, -⟩ := addressRefusal_eq_none_iff.mp haddr
    exact ⟨⟨halign, hrange, untilAbort_snd_eq_none_iff.mp habort⟩, ht⟩
  · rintro ⟨⟨halign, hrange, habort⟩, rfl⟩
    have haddr : s.addressRefusal f.start f.words [] = none :=
      addressRefusal_eq_none_iff.mpr ⟨halign, hrange, by simp⟩
    have hall : s.untilAbort (withAddrs f.start.toNat f.regs) = (withAddrs f.start.toNat f.regs, none) :=
      untilAbort_none habort
    simp only [load, haddr, hall]
    rfl

/-- A store completes exactly if its address range is reachable and is not code. -/
theorem store_eq_next_iff :
    s.store f.regs f.start f.words f.rn f.wb = .next t ↔
      s.Reachable f ∧ s.NotCode f ∧ t = ((s.storeWords f.pairs).writeBase f.rn f.wb).advance := by
  constructor
  · intro h
    obtain ⟨haddr, habort, ht⟩ := store_next h
    obtain ⟨halign, hrange, hcode⟩ := addressRefusal_eq_none_iff.mp haddr
    exact ⟨⟨halign, hrange, untilAbort_snd_eq_none_iff.mp habort⟩, hcode, ht⟩
  · rintro ⟨⟨halign, hrange, habort⟩, hcode, rfl⟩
    have haddr : s.addressRefusal f.start f.words (withAddrs f.start.toNat f.regs) = none :=
      addressRefusal_eq_none_iff.mpr ⟨halign, hrange, hcode⟩
    have hall : s.untilAbort (withAddrs f.start.toNat f.regs) = (withAddrs f.start.toNat f.regs, none) :=
      untilAbort_none habort
    simp only [store, haddr, hall]
    rfl

theorem load_refused {r : Refusal} (h : s.addressRefusal f.start f.words [] = some r) :
    s.load f.regs f.start f.words f.rn f.wb = .refused r := by
  simp [load, h]

theorem store_refused {r : Refusal} (h : s.addressRefusal f.start f.words f.pairs = some r) :
    s.store f.regs f.start f.words f.rn f.wb = .refused r := by
  rw [Transfer.pairs] at h
  simp [store, h]

section
variable {before after : List (BitVec 5 × Nat)} {w : BitVec 5 × Nat}
  (halign : f.start.extractLsb' 0 2 = 0#2) (hrange : f.start.toNat + 4 * f.words ≤ 2 ^ 32)
  (hp : f.pairs = before ++ w :: after) (hb : ∀ v ∈ before, s.abortsAt v.2 = false) (hw : s.abortsAt w.2 = true)
include halign hrange hp hb hw

/-- A load stops at the first word that aborts. -/
theorem load_aborted :
    s.load f.regs f.start f.words f.rn f.wb =
      .fault (.dataAbort (BitVec.ofNat 32 w.2) (s.partialLoad before).closeWin) := by
  have haddr : s.addressRefusal f.start f.words [] = none :=
    addressRefusal_eq_none_iff.mpr ⟨halign, hrange, by simp⟩
  rw [Transfer.pairs] at hp
  simp only [load, haddr, hp, untilAbort_append hb hw]

/-- A store that is not refused stops at the first word that aborts. -/
theorem store_aborted (hcode : s.NotCode f) :
    s.store f.regs f.start f.words f.rn f.wb =
      .fault (.dataAbort (BitVec.ofNat 32 w.2) (s.partialStore before).closeWin) := by
  have haddr : s.addressRefusal f.start f.words f.pairs = none :=
    addressRefusal_eq_none_iff.mpr ⟨halign, hrange, hcode⟩
  rw [Transfer.pairs] at hp haddr
  simp only [store, haddr]
  simp only [hp, untilAbort_append hb hw]

end

/-- A partial load is the whole load of some of its words, in which of them free values decide. -/
theorem partialLoad_eq_loadWords (s : State) (ws : List (BitVec 5 × Nat)) :
    ∃ done n, done.Sublist ws ∧ s.partialLoad ws = State.loadWords { s with draws := n } done := by
  induction ws generalizing s with
  | nil => exact ⟨[], s.draws, .slnil, rfl⟩
  | cons w rest ih =>
    rw [partialLoad]
    split
    · obtain ⟨done, n, hsub, heq⟩ := ih (s.draw.2.writeS w.1 (s.draw.2.readWord w.2))
      exact ⟨w :: done, n, hsub.cons_cons w, heq⟩
    · obtain ⟨done, n, hsub, heq⟩ := ih s.draw.2
      exact ⟨done, n, hsub.cons w, heq⟩

/-- A partial store is the whole store of some of its words. -/
theorem partialStore_eq_storeWords (s : State) (ws : List (BitVec 5 × Nat)) :
    ∃ done n, done.Sublist ws ∧ s.partialStore ws = State.storeWords { s with draws := n } done := by
  induction ws generalizing s with
  | nil => exact ⟨[], s.draws, .slnil, rfl⟩
  | cons w rest ih =>
    rw [partialStore]
    split
    · obtain ⟨done, n, hsub, heq⟩ := ih (s.draw.2.writeWord w.2 (s.draw.2.readS w.1))
      exact ⟨w :: done, n, hsub.cons_cons w, heq⟩
    · obtain ⟨done, n, hsub, heq⟩ := ih s.draw.2
      exact ⟨done, n, hsub.cons w, heq⟩

end State

/-! ### What a load and a store leave (44_ls_memory.md R311 to R329) -/

section
variable {s t : State} {f : Transfer}

/-- The write-back is what the transfer says of the base, whatever else of the state the words have changed
(44_ls_memory.md R322). -/
theorem Transfer.baseAfter.of_writeBase {u : State} (hu : u.arm = s.arm) :
    f.baseAfter s (u.writeBase f.rn f.wb).advance := by
  intro r hr
  rw [State.readArm_of_arm (State.advance_arm _) hr, State.readArm_writeBase _ _ _ hr, State.readArm_of_arm hu hr]

/-- What a load that completes leaves. -/
theorem State.Loaded.of_load (hf : f.regs.Nodup) (h : s.load f.regs f.start f.words f.rn f.wb = .next t) :
    s.Loaded t f := by
  obtain ⟨-, rfl⟩ := State.load_eq_next_iff.mp h
  have hread (r) : (((s.loadWords f.pairs).writeBase f.rn f.wb).advance).readS r = (s.loadWords f.pairs).readS r :=
    State.readS_congr (by simp) r
  have hmark (r) :
      (((s.loadWords f.pairs).writeBase f.rn f.wb).advance).isWritten r = (s.loadWords f.pairs).isWritten r := by
    simp [State.isWritten]
  constructor
  case words =>
    intro w hw
    rw [hread]
    rcases s.readS_loadWords f.pairs w.1 with ⟨hnone, -⟩ | ⟨v, hv, hvw, hr⟩
    · exact absurd rfl (hnone w hw)
    · rw [hr, Transfer.eq_of_reg_eq hf hv hw hvw]
  case marked =>
    intro w hw
    rw [hmark]
    exact (s.isWritten_loadWords _ _).mpr (.inl ⟨w, hw, rfl⟩)
  case others =>
    intro r hr
    have hnone : ¬ ∃ w ∈ f.pairs, w.1 = r := mt Transfer.mem_regs_iff.mpr hr
    rw [hread, hmark]
    constructor
    · rcases s.readS_loadWords f.pairs r with ⟨-, h⟩ | ⟨v, hv, hvr, -⟩
      · exact h
      · exact absurd ⟨v, hv, hvr⟩ hnone
    · rw [Bool.eq_iff_iff, s.isWritten_loadWords, or_iff_right hnone]
  case base => exact .of_writeBase (by simp)
  case system => constructor <;> simp
  case env => constructor <;> simp
  all_goals simp

/-- What a store that completes leaves. -/
theorem State.Stored.of_store (h : s.store f.regs f.start f.words f.rn f.wb = .next t) : s.Stored t f := by
  obtain ⟨-, -, rfl⟩ := State.store_eq_next_iff.mp h
  have hbyte (a) : (((s.storeWords f.pairs).writeBase f.rn f.wb).advance).readByte a =
      (s.storeWords f.pairs).readByte a := by
    simp [State.readByte]
  have hword (a) : (((s.storeWords f.pairs).writeBase f.rn f.wb).advance).readWord a =
      (s.storeWords f.pairs).readWord a := by
    simp only [State.readWord, hbyte]
  constructor
  case words =>
    intro w hw
    rw [hword]
    rcases s.readWord_storeWords (f.apart_of_mem hw) with ⟨hnone, -⟩ | ⟨v, hv, hvw, hr⟩
    · exact absurd rfl (hnone w hw)
    · rw [hr, Transfer.eq_of_addr_eq hv hw hvw]
  case others =>
    intro a ha
    rw [hbyte, s.readByte_storeWords_outside ha]
  case base => exact .of_writeBase (by simp)
  case system => constructor <;> simp
  case env => constructor <;> simp
  all_goals simp

end

/-- Settles O34: no address check and no abort stops a load in a reachable range, and it loads every word. -/
theorem loadReadsMemory : Obligations.LoadReadsMemory := by
  intro s i f hf hi hs hreach
  have hload := State.load_eq_next_iff.mpr ⟨hreach, rfl⟩
  exact ⟨_, (exec_load hf hi hs).trans hload, .of_load (State.loadOf_nodup hf hi) hload⟩

/-- Settles O35: the same for a store, outside code. -/
theorem storeWritesMemory : Obligations.StoreWritesMemory := by
  intro s i f hf hi hs hreach hcode
  have hstore := State.store_eq_next_iff.mpr ⟨hreach, hcode, rfl⟩
  exact ⟨_, (exec_store hf hi hs).trans hstore, .of_store hstore⟩

/-! ### Transfers that abort or are refused (20_memory.md R96 to R105, R111) -/

section
variable {s : State} {f : Transfer} {before : List (BitVec 5 × Nat)}

/-- Each register of a partial load is old or loaded. -/
theorem State.readS_partialLoad (hf : f.regs.Nodup) (hsub : before ⊆ f.pairs) {v : BitVec 5 × Nat} (hv : v ∈ before) :
    (s.partialLoad before).readS v.1 = s.readS v.1 ∨ (s.partialLoad before).readS v.1 = s.readWord v.2 := by
  obtain ⟨done, n, hdone, heq⟩ := s.partialLoad_eq_loadWords before
  rw [heq]
  rcases State.readS_loadWords { s with draws := n } done v.1 with ⟨-, hr⟩ | ⟨w, hw, hwv, hr⟩
  · exact .inl hr
  · obtain rfl := Transfer.eq_of_reg_eq hf (hsub (hdone.subset hw)) (hsub hv) hwv
    exact .inr hr

theorem State.readS_partialLoad_other {r : BitVec 5} (hr : ∀ v ∈ before, r ≠ v.1) :
    (s.partialLoad before).readS r = s.readS r := by
  obtain ⟨done, n, hdone, heq⟩ := s.partialLoad_eq_loadWords before
  rw [heq]
  rcases State.readS_loadWords { s with draws := n } done r with ⟨-, h⟩ | ⟨w, hw, hwr, -⟩
  · exact h
  · exact absurd hwr.symm (hr w (hdone.subset hw))

/-- Each word of a partial store is old or stored. -/
theorem State.readWord_partialStore (hsub : before ⊆ f.pairs) {v : BitVec 5 × Nat} (hv : v ∈ before) :
    (s.partialStore before).readWord v.2 = s.readWord v.2 ∨ (s.partialStore before).readWord v.2 = s.readS v.1 := by
  obtain ⟨done, n, hdone, heq⟩ := s.partialStore_eq_storeWords before
  rw [heq]
  have hapart := fun w (hw : w ∈ done) => f.apart_of_mem (hsub hv) w (hsub (hdone.subset hw))
  rcases State.readWord_storeWords { s with draws := n } hapart with ⟨-, hr⟩ | ⟨w, hw, hwv, hr⟩
  · exact .inl hr
  · obtain rfl := Transfer.eq_of_addr_eq (hsub (hdone.subset hw)) (hsub hv) hwv
    exact .inr hr

theorem State.readByte_partialStore_outside {a : Nat} (ha : ∀ v ∈ before, a < v.2 ∨ v.2 + 4 ≤ a) :
    (s.partialStore before).readByte a = s.readByte a := by
  obtain ⟨done, n, hdone, heq⟩ := s.partialStore_eq_storeWords before
  rw [heq]
  exact State.readByte_storeWords_outside _ fun v hv => ha v (hdone.subset hv)

end

/-- Settles O36: a transfer stops at the first word that aborts, before the base is written, and what it has done is the
whole transfer of some of the words before. -/
theorem abortedTransferIsPartial : Obligations.AbortedTransferIsPartial := by
  intro s i f before after w hi hs halign hrange hp hb hw
  have hsub : before ⊆ f.pairs := hp ▸ List.subset_append_left _ _
  refine ⟨fun hf => ?load, fun hf hcode => ?store⟩
  case load =>
    refine ⟨_, (exec_load hf hi hs).trans (State.load_aborted halign hrange hp hb hw), ?_⟩
    obtain ⟨done, n, -, heq⟩ := s.partialLoad_eq_loadWords before
    refine ⟨?_, ?_, ?_, ?_, ?_, ?_, fun v hv => ?old_or_loaded, fun r hr => ?other⟩
    case old_or_loaded => exact State.readS_partialLoad (State.loadOf_nodup hf hi) hsub hv
    case other => exact State.readS_partialLoad_other hr
    all_goals simp [heq]
  case store =>
    refine ⟨_, (exec_store hf hi hs).trans (State.store_aborted halign hrange hp hb hw hcode), ?_⟩
    obtain ⟨done, n, -, heq⟩ := s.partialStore_eq_storeWords before
    refine ⟨?_, ?_, ?_, ?_, ?_, ?_, fun v hv => ?old_or_stored, fun a ha => ?outside⟩
    case old_or_stored => exact State.readWord_partialStore hsub hv
    case outside => exact State.readByte_partialStore_outside ha
    all_goals simp [heq]

/-- What the address checks refuse of any store, or of a load, is refused by name. -/
theorem exec_refused {s : State} {i : Instr} {f : Transfer} (hf : s.loadOf i = some f ∨ s.storeOf i = some f)
    (hi : i.WellFormed) (hs : s.Ready i.cond) {r : Refusal}
    (hr : ∀ stores, s.addressRefusal f.start f.words stores = some r) : exec i s = .refused r := by
  rcases hf with hf | hf
  · exact (exec_load hf hi hs).trans (State.load_refused (hr _))
  · exact (exec_store hf hi hs).trans (State.store_refused (hr _))

/-- Settles O37: the address checks come before the first word moves. -/
theorem transferAddressRefusals : Obligations.TransferAddressRefusals := by
  intro s i f hf hi hs
  refine ⟨fun halign => ?misaligned, fun halign hrange => ?wrap, fun hstore halign hrange hcode => ?code⟩
  case misaligned => exact exec_refused hf hi hs fun _ => State.addressRefusal_misaligned halign
  case wrap => exact exec_refused hf hi hs fun _ => State.addressRefusal_wrap halign hrange
  case code =>
    refine (exec_store hstore hi hs).trans (State.store_refused ?_)
    rw [State.addressRefusal_inRange halign hrange, if_pos (State.any_fetched_iff.mpr hcode)]

/-! ### Double words and register saves (20_memory.md R93; 44_ls_memory.md R325, R326, R329) -/

/-- The address of a single transfer, the offset counted in words (44_ls_memory.md R313). -/
theorem State.singleAddr_eq (s : State) (rn : ArmReg) (u : Bool) (off : BitVec 8) :
    s.singleAddr rn u off =
      if u then s.readArm rn + 4#32 * off.setWidth 32 else s.readArm rn - 4#32 * off.setWidth 32 := by
  have hoff : wordsOffset off.toNat = 4#32 * off.setWidth 32 := by
    apply BitVec.eq_of_toNat_eq
    simp [wordsOffset]
  rw [singleAddr, hoff]

/-- The two words of one D register (20_memory.md R93). -/
theorem State.pairs_single_double (s : State) (u : Bool) (rn : ArmReg) (d : DReg) (off : BitVec 8) :
    (s.single u rn off (dList s.bigEndian d 1)).pairs =
      if s.bigEndian then
        [(highHalf d, (s.singleAddr rn u off).toNat), (lowHalf d, (s.singleAddr rn u off).toNat + 4)]
      else [(lowHalf d, (s.singleAddr rn u off).toNat), (highHalf d, (s.singleAddr rn u off).toNat + 4)] := by
  cases hb : s.bigEndian <;> simp [single, Transfer.pairs, dList, withAddrs]

/-- A D register whose halves are the two words of a single transfer (20_memory.md R93). -/
theorem State.readD_of_words {s x y : State} {u : Bool} {rn : ArmReg} {d : DReg} {off : BitVec 8}
    (h : ∀ w ∈ (s.single u rn off (dList s.bigEndian d 1)).pairs, x.readS w.1 = y.readWord w.2) :
    let a := (s.singleAddr rn u off).toNat
    x.readD d = if s.bigEndian then y.readWord a ++ y.readWord (a + 4) else y.readWord (a + 4) ++ y.readWord a := by
  rw [s.pairs_single_double] at h
  by_cases hb : s.bigEndian = true
  · rw [if_pos hb, List.forall_mem_cons, List.forall_mem_singleton] at h
    obtain ⟨hhigh, hlow⟩ := h
    simp only [readD, hhigh, hlow, if_pos hb]
  · rw [if_neg hb, List.forall_mem_cons, List.forall_mem_singleton] at h
    obtain ⟨hlow, hhigh⟩ := h
    simp only [readD, hhigh, hlow, if_neg hb]

/-- Settles O38: the words of the one D register, in the order of the access. -/
theorem doubleWordOrderInMemory : Obligations.DoubleWordOrderInMemory := by
  intro s t c u rn d off hs
  dsimp only
  rw [← State.singleAddr_eq]
  refine ⟨fun ht => ?load, fun ht => ?store⟩
  case load =>
    have hf : s.loadOf (.fldd c u rn d off) = some (s.single u rn off (dList s.bigEndian d 1)) := rfl
    have hloaded := State.Loaded.of_load (State.loadOf_nodup hf rfl) ((exec_load hf rfl hs).symm.trans ht)
    exact State.readD_of_words hloaded.words
  case store =>
    have hf : s.storeOf (.fstd c u rn d off) = some (s.single u rn off (dList s.bigEndian d 1)) := rfl
    have hstored := State.Stored.of_store ((exec_store hf rfl hs).symm.trans ht)
    exact State.readD_of_words fun w hw => (hstored.words w hw).symm

theorem State.regs_of_savedBy {s : State} {i : Instr} {d : DReg} {n : BitVec 7} {f : Transfer}
    (hi : savedBy i = some (d, n)) (hf : s.storeOf i = some f) :
    f.regs = dList s.bigEndian d n.toNat ∧ f.words = 2 * n.toNat + 1 := by
  cases i
  case fstmxIa | fstmxIaWb | fstmxDbWb => cases hi; cases hf; exact ⟨rfl, rfl⟩
  all_goals cases hi

theorem State.regs_of_restoredBy {s : State} {i : Instr} {d : DReg} {n : BitVec 7} {f : Transfer}
    (hi : restoredBy i = some (d, n)) (hf : s.loadOf i = some f) :
    f.regs = dList s.bigEndian d n.toNat ∧ f.words = 2 * n.toNat + 1 := by
  cases i
  case fldmxIa | fldmxIaWb | fldmxDbWb => cases hi; cases hf; exact ⟨rfl, rfl⟩
  all_goals cases hi

/-- Settles O39: the load moves the same registers over the same words as the store, so it reaches them all, and each of
them holds the register that was stored. -/
theorem savedRegistersAreRestored : Obligations.SavedRegistersAreRestored := by
  intro s t u i j d n f g hs hu hj hsave hrestore hf hg hstart ht hmem haborts hbig
  obtain ⟨hfregs, hfwords⟩ := State.regs_of_savedBy hsave hf
  obtain ⟨hgregs, hgwords⟩ := State.regs_of_restoredBy hrestore hg
  have hregs : g.regs = f.regs := by rw [hgregs, hfregs, hbig]
  have hpairs : g.pairs = f.pairs := by rw [Transfer.pairs, Transfer.pairs, hstart, hregs]
  have hstore := (exec_store hf (wellFormed_of_exec_store hf hs ht) hs).symm.trans ht
  obtain ⟨⟨halign, hrange, habort⟩, -, -⟩ := State.store_eq_next_iff.mp hstore
  have hreach : u.Reachable g := by
    refine ⟨hstart ▸ halign, by rw [hstart, hgwords, ← hfwords]; exact hrange, fun w hw => ?_⟩
    rw [State.abortsAt, haborts]
    exact habort w (hpairs ▸ hw)
  obtain ⟨v, hv, hloaded⟩ := loadReadsMemory u j g hg hj hu hreach
  have hword (a) : u.readWord a = t.readWord a := by simp only [State.readWord, State.readByte, hmem]
  have hreg : ∀ r ∈ f.regs, v.readS r = s.readS r := by
    intro r hr
    obtain ⟨w, hw, rfl⟩ := Transfer.mem_regs_iff.mp hr
    rw [hloaded.words w (hpairs ▸ hw), hword, (State.Stored.of_store hstore).words w hw]
  refine ⟨v, hv, fun k hk => ?_⟩
  have hlow := hreg (lowHalf (d + BitVec.ofNat 4 k)) (hfregs ▸ mem_dList.mpr ⟨k, hk, .inl rfl⟩)
  have hhigh := hreg (highHalf (d + BitVec.ofNat 4 k)) (hfregs ▸ mem_dList.mpr ⟨k, hk, .inr rfl⟩)
  rw [State.readD, State.readD, hlow, hhigh]

end Sys2Proof.Machine

/-! Proofs, encoding: a word is its fields, the word of what the decoder reads, the instruction read from the word of an
instruction, and the forms refused by name (30_encoding.md R121 to R142; 60_exceptions.md R435). -/

namespace Sys2Proof

/-! ### A word is its fields (30_encoding.md R125, R130, R136, R138) -/

@[simp] theorem bit1_false : bit1 false = 0#1 := rfl

@[simp] theorem bit1_true : bit1 true = 1#1 := rfl

theorem field_one (w : Word) (k : Nat) : field w k 1 = bit1 (bitAt w k) := by
  apply BitVec.eq_of_getLsbD_eq
  intro j hj
  obtain rfl : j = 0 := by omega
  simp [field, bitAt, bit1, -BitVec.getLsbD_eq_getElem, BitVec.getLsbD_extractLsb']

theorem bitAt_of_field {w : Word} {k : Nat} {b : Bool} (h : field w k 1 = bit1 b) : bitAt w k = b := by
  rw [← bit1_getLsbD (bitAt w k), ← field_one, h, bit1_getLsbD]

/-- Two neighbouring fields of a word are one field. -/
theorem field_append_field (w : Word) {lo n lo' n' : Nat} (h : lo = lo' + n') :
    field w lo n ++ field w lo' n' = field w lo' (n + n') :=
  BitVec.extractLsb'_append_extractLsb'_eq_extractLsb' h

theorem field_whole (w : Word) : field w 0 32 = w := BitVec.extractLsb'_eq_self

/-- Bits [27:25], of the class in [27:24]. -/
theorem field_class {w : Word} {v : BitVec 4} (h : field w 24 4 = v) : field w 25 3 = v.extractLsb' 1 3 := by
  rw [← h, ← show field w 25 3 ++ field w 24 1 = field w 24 4 from field_append_field w rfl,
    BitVec.extractLsb'_append_eq_left]

/-- P, U, W and L, one by one. -/
theorem puwl_fields {w : Word} {puwl : BitVec 4} (h : field w 23 2 ++ field w 20 2 = puwl) :
    puwl.extractLsb' 3 1 = field w 24 1 ∧ puwl.extractLsb' 2 1 = field w 23 1 ∧ puwl.extractLsb' 1 1 = field w 21 1 ∧
      puwl.extractLsb' 0 1 = field w 20 1 := by
  rw [← h, ← show field w 24 1 ++ field w 23 1 = field w 23 2 from field_append_field w rfl,
    ← show field w 21 1 ++ field w 20 1 = field w 20 2 from field_append_field w rfl]
  generalize field w 24 1 = p, field w 23 1 = u, field w 21 1 = wb, field w 20 1 = l
  revert p u wb l
  decide

section
variable {w : Word} {c : Cond} (hcond : condOf (field w 28 4) = some c) (hcp : field w 9 3 = 0b101#3)
include hcond hcp

theorem cdpWord_fields (hclass : field w 24 4 = 0b1110#4) (hbit : bitAt w 4 = false) {pqrs : BitVec 4}
    (h : field w 23 1 ++ field w 20 2 ++ field w 6 1 = pqrs) :
    cdpWord c pqrs (bit1 (bitAt w 8)) (fieldD w) (fieldN w) (fieldM w) = w := by
  have hop : pqrs.extractLsb' 3 1 = field w 23 1 ∧ pqrs.extractLsb' 1 2 = field w 20 2 ∧
      pqrs.extractLsb' 0 1 = field w 6 1 := by
    rw [← h]
    generalize field w 23 1 = p, field w 20 2 = qr, field w 6 1 = s
    revert p qr s
    decide
  obtain ⟨hp, hqr, hs⟩ := hop
  have hzero : field w 4 1 = 0#1 := by rw [field_one, hbit, bit1_false]
  rw [cdpWord, hp, hqr, hs, code_condOf hcond, ← hclass, ← hcp, ← hzero, ← field_one]
  simp only [fieldD, fieldN, fieldM, upper_append, lowest_append, field_append_field]
  exact field_whole w

theorem transferWord_fields (hclass : field w 24 4 = 0b1110#4) (hbit : bitAt w 4 = true) {op : BitVec 5}
    (h : field w 20 4 ++ field w 8 1 = op) :
    transferWord c (op.extractLsb' 2 3) (op.extractLsb' 1 1) (op.extractLsb' 0 1) (fieldN w) (field w 12 4)
      (field w 5 2 ++ field w 0 4) = w := by
  have hop : op.extractLsb' 2 3 = field w 21 3 ∧ op.extractLsb' 1 1 = field w 20 1 ∧
      op.extractLsb' 0 1 = field w 8 1 := by
    rw [← h, ← show field w 21 3 ++ field w 20 1 = field w 20 4 from field_append_field w rfl]
    generalize field w 21 3 = opc, field w 20 1 = l, field w 8 1 = dbl
    revert opc l dbl
    decide
  obtain ⟨hopc, hl, hdbl⟩ := hop
  have hone : field w 4 1 = 1#1 := by rw [field_one, hbit, bit1_true]
  rw [transferWord, hopc, hl, hdbl, BitVec.extractLsb'_append_eq_left, BitVec.extractLsb'_append_eq_right,
    code_condOf hcond, ← hclass, ← hcp, ← hone]
  simp only [fieldN, upper_append, lowest_append, field_append_field]
  exact field_whole w

theorem pairWord_fields (hclass : field w 24 4 = 0b1100#4) (hpair : field w 21 3 = 0b010#3) (h7 : bitAt w 7 = false)
    (h6 : bitAt w 6 = false) (h4 : bitAt w 4 = true) :
    pairWord c (bit1 (bitAt w 20)) (bit1 (bitAt w 8)) (field w 16 4) (field w 12 4) (fieldM w) = w := by
  have hhead : field w 21 7 = 0b1100010#7 := by
    rw [← show field w 24 4 ++ field w 21 3 = field w 21 7 from field_append_field w rfl, hclass, hpair]
    rfl
  have hzero : field w 6 2 = 0b00#2 := by
    rw [← show field w 7 1 ++ field w 6 1 = field w 6 2 from field_append_field w rfl, field_one, field_one, h7, h6]
    rfl
  have hone : field w 4 1 = 1#1 := by rw [field_one, h4, bit1_true]
  rw [pairWord, code_condOf hcond, ← hhead, ← hcp, ← hzero, ← hone, ← field_one, ← field_one]
  simp only [fieldM, upper_append, lowest_append, field_append_field]
  exact field_whole w

theorem loadStoreWord_fields (hclass : field w 25 3 = 0b110#3) {puwl : BitVec 4}
    (h : field w 23 2 ++ field w 20 2 = puwl) :
    loadStoreWord c (puwl.extractLsb' 3 1) (puwl.extractLsb' 2 1) (puwl.extractLsb' 1 1) (puwl.extractLsb' 0 1)
      (bit1 (bitAt w 8)) (field w 16 4) (fieldD w) (field w 0 8) = w := by
  obtain ⟨hp, hu, hw, hl⟩ := puwl_fields h
  rw [loadStoreWord, hp, hu, hw, hl, code_condOf hcond, ← hclass, ← hcp, ← field_one]
  simp only [fieldD, upper_append, lowest_append, field_append_field]
  exact field_whole w

end

/-! ### The word of what the decoder reads -/

/-- If what was read is an instruction, `w` is its word. -/
def Decoded.Encodes (x : Decoded) (w : Word) : Prop := ∀ i, x = .instr i → encode i = w

section
variable {w : Word} {c : Cond}

@[simp] theorem Decoded.encodes_instr {i : Instr} : (Decoded.instr i).Encodes w ↔ encode i = w :=
  ⟨fun h => h i rfl, fun h _ hj => Decoded.instr.inj hj ▸ h⟩

@[simp] theorem Decoded.encodes_undefined {c : Option Cond} {why : Illegal} : (Decoded.undefined c why).Encodes w := by
  intro _ h
  cases h

@[simp] theorem Decoded.encodes_notVfp : Decoded.notVfp.Encodes w := by
  intro _ h
  cases h

@[simp] theorem Decoded.encodes_ifEven {odd : Bool} {i : Instr} :
    (ifEven c odd i).Encodes w ↔ (odd = false → encode i = w) := by
  cases odd <;> simp [ifEven]

theorem decodeExt_encodes (dbl : Bool) (ext d m : BitVec 5) :
    (decodeExt c dbl ext d m).Encodes (cdpWord c 0b1111#4 (bit1 dbl) d ext m) := by
  unfold decodeExt
  split
  all_goals cases dbl <;> simp +contextual [encode, evenReg_upper]

theorem decodeCdp_encodes {pqrs : BitVec 4} (h : field w 23 1 ++ field w 20 2 ++ field w 6 1 = pqrs) :
    (decodeCdp c w).Encodes (cdpWord c pqrs (bit1 (bitAt w 8)) (fieldD w) (fieldN w) (fieldM w)) := by
  rw [decodeCdp, h]
  split
  case h_10 => exact decodeExt_encodes (bitAt w 8) (fieldN w) (fieldD w) (fieldM w)
  all_goals cases bitAt w 8 <;> simp +contextual [encode, evenReg_upper]

/-- The Should-Be-Zero field of FMXR and FMRX holds N, so `reg` and it are the register field (30_encoding.md R137). -/
theorem sysWord_fields {reg : SysReg} (h : sysRegOf (upper (fieldN w)) = some reg) (l : BitVec 1) (rd : ArmReg)
    (sbz : BitVec 6) :
    sysWord c l reg rd (field w 7 1 ++ sbz) = transferWord c 0b111#3 l 0#1 (fieldN w) rd sbz := by
  rw [sysWord, BitVec.extractLsb'_append_eq_left, BitVec.extractLsb'_append_eq_right, code_sysRegOf h, fieldN,
    upper_append]

theorem decodeTransfer_encodes {op : BitVec 5} (h : field w 20 4 ++ field w 8 1 = op) :
    (decodeTransfer c w).Encodes
      (transferWord c (op.extractLsb' 2 3) (op.extractLsb' 1 1) (op.extractLsb' 0 1) (fieldN w) (field w 12 4)
        (field w 5 2 ++ field w 0 4)) := by
  rw [decodeTransfer, h]
  split
  case h_7 =>
    split
    next reg hreg => exact Decoded.encodes_instr.mpr (sysWord_fields hreg ..)
    next => exact Decoded.encodes_undefined
  case h_8 =>
    split
    next reg hreg =>
      split
      next hstat =>
        obtain ⟨rfl, hrd⟩ := hstat
        exact Decoded.encodes_instr.mpr (hrd ▸ sysWord_fields hreg ..)
      next => exact Decoded.encodes_instr.mpr (sysWord_fields hreg ..)
    next => exact Decoded.encodes_undefined
  all_goals simp +contextual [encode, evenReg_upper]

theorem decodePair_encodes :
    (decodePair c w).Encodes
      (pairWord c (bit1 (bitAt w 20)) (bit1 (bitAt w 8)) (field w 16 4) (field w 12 4) (fieldM w)) := by
  unfold decodePair
  split
  case isTrue => exact Decoded.encodes_undefined
  case isFalse =>
    cases bitAt w 20 <;> cases bitAt w 8 <;> simp +contextual [encode, evenReg_upper]

/-- The pair format is read only where bits [7:4] are 00M1 (30_encoding.md R138). -/
theorem decodePair_bits {i : Instr} (h : decodePair c w = .instr i) :
    bitAt w 7 = false ∧ bitAt w 6 = false ∧ bitAt w 4 = true := by
  unfold decodePair at h
  split at h
  case isTrue => cases h
  case isFalse hbits => simpa [and_assoc] using hbits

/-- A register list of D registers has its kind in the lowest bit of the offset (30_encoding.md R135). -/
theorem byList_encodes {p u wb l : BitVec 1} {rn : ArmReg} {s : SReg → BitVec 8 → Instr}
    {dd x : DReg → BitVec 7 → Instr} (hs : ∀ d n, encode (s d n) = loadStoreWord c p u wb l 0#1 rn d n)
    (hdd : ∀ d n, encode (dd d n) = loadStoreWord c p u wb l 1#1 rn (evenReg d) (n ++ 0#1))
    (hx : ∀ d n, encode (x d n) = loadStoreWord c p u wb l 1#1 rn (evenReg d) (n ++ 1#1))
    (dbl : Bool) (d : BitVec 5) (off : BitVec 8) :
    (byList c dbl d off s dd x).Encodes (loadStoreWord c p u wb l (bit1 dbl) rn d off) := by
  have hoff : off.extractLsb' 1 7 ++ bit1 (off.getLsbD 0) = off := by
    revert off
    decide
  cases dbl with
  | false => exact Decoded.encodes_instr.mpr (hs d off)
  | true =>
    refine Decoded.encodes_ifEven.mpr fun hd => ?_
    cases hkind : off.getLsbD 0 with
    | false =>
      rw [hkind] at hoff
      exact (hdd ..).trans (by rw [evenReg_upper hd, ← bit1_false, hoff, bit1_true])
    | true =>
      rw [hkind] at hoff
      exact (hx ..).trans (by rw [evenReg_upper hd, ← bit1_true, hoff])

theorem decodeLoadStore_encodes {puwl : BitVec 4} (h : field w 23 2 ++ field w 20 2 = puwl) :
    (decodeLoadStore c w).Encodes
      (loadStoreWord c (puwl.extractLsb' 3 1) (puwl.extractLsb' 2 1) (puwl.extractLsb' 1 1) (puwl.extractLsb' 0 1)
        (bit1 (bitAt w 8)) (field w 16 4) (fieldD w) (field w 0 8)) := by
  obtain ⟨-, hu, -, -⟩ := puwl_fields h
  rw [field_one] at hu
  rw [decodeLoadStore, h]
  split
  case h_1 | h_2 | h_6 | h_7 => cases bitAt w 8 <;> simp +contextual [encode, evenReg_upper, ← hu]
  case h_11 => exact Decoded.encodes_undefined
  all_goals refine byList_encodes ?_ ?_ ?_ _ _ _ <;> intros <;> rfl

theorem decodeLoadStore_encodes_self (hcond : condOf (field w 28 4) = some c) (hcp : field w 9 3 = 0b101#3)
    (hclass : field w 25 3 = 0b110#3) : (decodeLoadStore c w).Encodes w :=
  fun i hi => (decodeLoadStore_encodes rfl i hi).trans (loadStoreWord_fields hcond hcp hclass rfl)

/-- Each format's word is put together from the fields its decoder reads. -/
theorem decode_encodes (w : Word) : (decode w).Encodes w := by
  unfold decode
  split
  case isFalse => exact Decoded.encodes_notVfp
  case isTrue hcp =>
    split
    case h_1 hclass =>
      split
      case h_1 => exact Decoded.encodes_undefined
      case h_2 c hcond =>
        split
        case isTrue hbit =>
          exact fun i hi => (decodeTransfer_encodes rfl i hi).trans (transferWord_fields hcond hcp hclass hbit rfl)
        case isFalse hbit =>
          rw [Bool.not_eq_true] at hbit
          exact fun i hi => (decodeCdp_encodes rfl i hi).trans (cdpWord_fields hcond hcp hclass hbit rfl)
    case h_2 hclass =>
      split
      case h_1 => exact Decoded.encodes_undefined
      case h_2 c hcond =>
        split
        case isTrue hpair =>
          intro i hi
          obtain ⟨h7, h6, h4⟩ := decodePair_bits hi
          exact (decodePair_encodes i hi).trans (pairWord_fields hcond hcp hclass hpair h7 h6 h4)
        case isFalse => exact decodeLoadStore_encodes_self hcond hcp (field_class hclass)
    case h_3 hclass =>
      split
      case h_1 => exact Decoded.encodes_undefined
      case h_2 c hcond => exact decodeLoadStore_encodes_self hcond hcp (field_class hclass)
    case h_4 => exact Decoded.encodes_notVfp

end

/-- Settles O3: every bit of the word is in a field that the decoder reads or tests. -/
theorem encodeOfDecode : Obligations.EncodeOfDecode := decode_encodes

/-! ### The instruction read from the word of an instruction -/

@[simp] theorem ifEven_false (c : Cond) (i : Instr) : ifEven c false i = .instr i := rfl

theorem decode_extWord (c : Cond) (dbl : BitVec 1) (d ext m : BitVec 5) :
    decode (cdpWord c 0b1111#4 dbl d ext m) = decodeExt c (dbl.getLsbD 0) ext d m := by
  simp [decode_cdpWord, decodeCdp, cdpWord_pqrs, cdpWord_fieldD, cdpWord_fieldN, cdpWord_fieldM, cdpWord_dbl]

@[simp] theorem byList_single (c : Cond) (d : BitVec 5) (off : BitVec 8) (s : SReg → BitVec 8 → Instr)
    (dd x : DReg → BitVec 7 → Instr) : byList c false d off s dd x = .instr (s d off) := rfl

theorem byList_evenReg (c : Cond) (d : DReg) (n : BitVec 7) (b : BitVec 1) (s : SReg → BitVec 8 → Instr)
    (dd x : DReg → BitVec 7 → Instr) :
    byList c true (evenReg d) (n ++ b) s dd x = .instr ((if b.getLsbD 0 then x else dd) d n) := by
  rw [byList, if_pos rfl, isOdd_evenReg, ifEven_false, listKind_append, listCount_append, upper_evenReg]

@[simp] theorem byList_double (c : Cond) (d : DReg) (n : BitVec 7) (s : SReg → BitVec 8 → Instr)
    (dd x : DReg → BitVec 7 → Instr) : byList c true (evenReg d) (n ++ 0#1) s dd x = .instr (dd d n) :=
  byList_evenReg ..

@[simp] theorem byList_extended (c : Cond) (d : DReg) (n : BitVec 7) (s : SReg → BitVec 8 → Instr)
    (dd x : DReg → BitVec 7 → Instr) : byList c true (evenReg d) (n ++ 1#1) s dd x = .instr (x d n) :=
  byList_evenReg ..

theorem decode_sysWord_write (c : Cond) (reg : SysReg) (rd : ArmReg) (sbz : BitVec 7) :
    decode (sysWord c 0#1 reg rd sbz) = .instr (.fmxr c reg rd sbz) := by
  simp [sysWord, decode_transferWord, decodeTransfer, transferWord_op, transferWord_fieldN, transferWord_rd,
    transferWord_sbz, transferWord_bit7]

/-- FMSTAT is FMRX of FPSCR to R15 (30_encoding.md R142). -/
theorem decode_sysWord_read (c : Cond) (reg : SysReg) (rd : ArmReg) (sbz : BitVec 7) :
    decode (sysWord c 1#1 reg rd sbz) =
      if reg = .fpscr ∧ rd = 15#4 then .instr (.fmstat c sbz) else .instr (.fmrx c rd reg sbz) := by
  simp [sysWord, decode_transferWord, decodeTransfer, transferWord_op, transferWord_fieldN, transferWord_rd,
    transferWord_sbz, transferWord_bit7]

/-- Settles O2: the formats one after another; that the form is not Unpredictable is needed only of FMRX, whose
word with R15 is FMSTAT's. -/
theorem decodeOfEncode : Obligations.DecodeOfEncode := by
  intro i hi
  cases i
  case fmacs | fmacd | fnmacs | fnmacd | fmscs | fmscd | fnmscs | fnmscd | fmuls | fmuld | fnmuls | fnmuld | fadds |
      faddd | fsubs | fsubd | fdivs | fdivd =>
    simp [encode, decode_cdpWord, decodeCdp, cdpWord_pqrs, cdpWord_fieldD, cdpWord_fieldN, cdpWord_fieldM, cdpWord_dbl]
  case fcpys | fcpyd | fabss | fabsd | fnegs | fnegd | fsqrts | fsqrtd | fcmps | fcmpd | fcmpes | fcmped | fcmpzs |
      fcmpzd | fcmpezs | fcmpezd | fcvtds | fcvtsd | fuitos | fuitod | fsitos | fsitod | ftouis | ftouid | ftouizs |
      ftouizd | ftosis | ftosid | ftosizs | ftosizd =>
    simp [encode, decode_extWord, decodeExt]
  case flds c u _ _ _ | fldd c u _ _ _ | fsts c u _ _ _ | fstd c u _ _ _ =>
    cases u <;>
      simp [encode, decode_loadStoreWord, decodeLoadStore, loadStoreWord_puwl, loadStoreWord_u, loadStoreWord_dbl,
        loadStoreWord_rn, loadStoreWord_fieldD, loadStoreWord_off]
  case fldmsIa | fldmsIaWb | fldmsDbWb | fldmdIa | fldmdIaWb | fldmdDbWb | fldmxIa | fldmxIaWb | fldmxDbWb | fstmsIa |
      fstmsIaWb | fstmsDbWb | fstmdIa | fstmdIaWb | fstmdDbWb | fstmxIa | fstmxIaWb | fstmxDbWb =>
    simp [encode, decode_loadStoreWord, decodeLoadStore, loadStoreWord_puwl, loadStoreWord_dbl, loadStoreWord_rn,
      loadStoreWord_fieldD, loadStoreWord_off]
  case fmsr | fmrs | fmdlr | fmrdl | fmdhr | fmrdh =>
    simp [encode, decode_transferWord, decodeTransfer, transferWord_op, transferWord_fieldN, transferWord_rd,
      transferWord_sbz]
  case fmxr => exact decode_sysWord_write ..
  case fmrx =>
    have hrd := (Option.or_eq_none_iff.mp hi).2
    simp only [armCheck, ite_eq_right_iff, reduceCtorEq, imp_false] at hrd
    exact (decode_sysWord_read ..).trans (if_neg fun h => hrd h.2)
  case fmstat => exact (decode_sysWord_read ..).trans (if_pos ⟨rfl, rfl⟩)
  case fmdrr | fmrrd | fmsrr | fmrrs =>
    simp [encode, decode_pairWord, decodePair, pairWord_bit4, pairWord_bit6, pairWord_bit7, pairWord_l, pairWord_dbl,
      pairWord_fieldM, pairWord_rn, pairWord_rd]

/-- Settles O1: the decoder run on each word. -/
theorem decodeReadsSpecWords : Obligations.DecodeReadsSpecWords := by
  unfold Obligations.DecodeReadsSpecWords
  decide

end Sys2Proof

namespace Sys2Proof.Machine

/-! ### FMSR (45_ls_register_transfer.md R343) -/

/-- A word of FMSR's match word with zero Should-Be-Zero bits is the word of an FMSR. -/
theorem encode_fmsr_of_mask {w : Word} {c : Cond} (hcond : condOf (field w 28 4) = some c)
    (hmask : w &&& 0x0FF00F10#32 = 0x0E000A10#32) (hsbz : w &&& 0x0000006F#32 = 0#32) :
    encode (.fmsr c (fieldN w) (field w 12 4) 0#6) = w := by
  have hfield {lo n : Nat} (hm : field 0x0FF00F10#32 lo n = BitVec.allOnes n) :
      field w lo n = field 0x0E000A10#32 lo n := field_congr_of_mask (hmask.trans (by decide)) hm
  have hzero {lo n : Nat} (hm : field 0x0000006F#32 lo n = BitVec.allOnes n) : field w lo n = field 0#32 lo n :=
    field_congr_of_mask (hsbz.trans (by decide)) hm
  have hop : field w 20 4 ++ field w 8 1 = 0b00000#5 := by
    rw [hfield (lo := 20) (n := 4) (by decide), hfield (lo := 8) (n := 1) (by decide)]
    decide
  have hfields := transferWord_fields hcond (hfield (by decide)) (hfield (by decide))
    (bitAt_of_field (b := true) (hfield (by decide))) hop
  rwa [hzero (lo := 5) (n := 2) (by decide), hzero (lo := 0) (n := 4) (by decide)] at hfields

/-- A move to the coprocessor that executes normally moves and advances. -/
theorem moveIn_ready {i : Instr} {s : State} (hi : i.WellFormed) (hs : s.Ready i.cond) (regs : List (BitVec 5))
    (f : State → State) : moveIn i regs f s = .next (f s).advance := by
  obtain ⟨hc, ha, he⟩ := hs
  rw [moveIn, checked_ready hc ha hi, issueTransfer_normal he]

theorem fmsr_wellFormed {c : Cond} {n : SReg} {rd : ArmReg} (hrd : rd ≠ 15#4) :
    (Instr.fmsr c n rd 0#6).WellFormed := by
  simp [Instr.WellFormed, Instr.unpredictable, sbzCheck, armCheck, hrd]

theorem exec_fmsr {s : State} {c : Cond} {rd : ArmReg} (hs : s.Ready c) (hrd : rd ≠ 15#4) (n : SReg) :
    exec (.fmsr c n rd 0#6) s = .next (s.writeS n (s.readArm rd)).advance :=
  moveIn_ready (i := .fmsr c n rd 0#6) (fmsr_wellFormed hrd) hs _ _

/-- Settles O42: the word is the word of an FMSR, so it decodes to it, and the FMSR writes one S register. -/
theorem fmsrMovesToSingle : Obligations.FmsrMovesToSingle := by
  intro s w c hcond hmask hsbz hrd hs
  have hdecode := decodeOfEncode (.fmsr c (fieldN w) (field w 12 4) 0#6) (fmsr_wellFormed hrd)
  rw [encode_fmsr_of_mask hcond hmask hsbz] at hdecode
  refine ⟨_, _, hdecode, exec_fmsr hs hrd _, ?moved, ?marked, fun r hr => ?others⟩
  case moved => exact State.readS_writeS_self ..
  case marked => exact (State.isWritten_writeS s (fieldN w) (fieldN w) (s.readArm (field w 12 4))).trans (if_pos rfl)
  case others => exact State.readS_writeS_other _ _ _ _ hr

/-! ### Forms refused by name (60_exceptions.md R435, 40_cdp_common.md R168) -/

/-- The gate refuses an Unpredictable form after the condition and the access (60_exceptions.md R454 step 5). -/
theorem checked_unpredictable {i : Instr} {a : Access} {s : State} {why : Unpredictable}
    (hc : condPassed i.cond s.cpsr = true) (ha : s.accessible a = true) (hu : i.unpredictable = some why)
    (go : State → Result) : checked i a go s = .refused (.unpredictable why) := by
  simp [checked, hc, ha, hu]

theorem legalLenStride_eq_false {w : Word}
    (h : Fpscr.stride w ∈ [0b01#2, 0b10#2] ∨ (Fpscr.stride w = 0b11#2 ∧ Fpscr.len w = 0)) :
    legalLenStride w = false := by
  simp only [List.mem_cons, List.not_mem_nil, or_false] at h
  rcases h with (h | h) | ⟨h, hlen⟩ <;> simp [legalLenStride, *]

theorem refusal_illegalLenStride {w : Word} (h : legalLenStride w = false) (c : Cdp) :
    c.refusal w = some .illegalLenStride := by
  simp [Cdp.refusal, h]

/-- A CDP instruction that is no trigger of a closed window is refused for what `Cdp.refusal` says. -/
theorem issueCdp_refusal {word : Word} {c : Cdp} {s : State} {r : Refusal} (hn : s.NoClosedTrigger)
    (hr : c.refusal s.fpscr = some r) : issueCdp word c s = .refused r := by
  cases hw : s.win with
  | opened dst src slot => exact issueCdp_refused hw hr
  | closed => rw [issueCdp_running (hn.resolve_right (not_not_intro hw)), startCdp_refused_iff.mpr hr]

/-- Of a trigger of a closed window only overlapping vectors are refused first (log entry 21). -/
theorem issueCdp_closedTrigger {word : Word} {c : Cdp} {s : State} (hn : ¬ s.NoClosedTrigger)
    (ho : c.overlapping s.fpscr = false) : issueCdp word c s = trigger (startCdp word c) s := by
  obtain ⟨he, hw⟩ := not_or.mp hn
  simp [issueCdp, Bool.not_eq_false _ ▸ he, not_not.mp hw, ho]

/-- Settles O9: the gate refuses the form; LEN and STRIDE are refused by `Cdp.refusal`, and vectors without a legal LEN
and STRIDE do not overlap, so that a trigger traps. -/
theorem unpredictableFormIsRefused : Obligations.UnpredictableFormIsRefused := by
  refine fun i s hc ha => ⟨fun why hu => ?form, fun hi ⟨c, hcdp⟩ hls => ?lenStride⟩
  case form =>
    obtain ⟨go, hgo⟩ := exec_eq_checked i s
    rw [hgo, checked_unpredictable hc ha hu]
  case lenStride =>
    have hillegal := legalLenStride_eq_false hls
    rw [exec_admitted hcdp ⟨hc, ha, hi⟩]
    refine ⟨fun hn => issueCdp_refusal hn (refusal_illegalLenStride hillegal c), fun hn hl => ?_⟩
    rw [issueCdp_closedTrigger hn (by simp [Cdp.overlapping, hillegal]), trigger_hardware hl]

end Sys2Proof.Machine

/-! Proofs, arithmetic: rounding, the numbers of the operations in RunFast mode, the copies and the conversions
(40_cdp_common.md R164, R178 to R191; 41_fmac_arith.md R221 to R241; 42_fmac_copy_compare_convert.md R251 to R291;
43_ds_divide_sqrt.md R301 to R306). -/

namespace Sys2Proof.Machine

/-! ### Rounding (40_cdp_common.md R178, R180, R182) -/

/-- Settles O60: the table, row by row. -/
theorem overflowResultTable : Obligations.OverflowResultTable := by
  refine ⟨?_, ?_, ?_, ?_, ?_, ?_, ?_, ?_⟩ <;> intro neg <;> cases neg <;> rfl

section
variable (neg : Bool) (num k : Nat) (sticky : Bool)

theorem roundUnits_zero : (roundUnits .zero neg num sticky k).1 = num / 2 ^ k := rfl

theorem roundUnits_inexact (rm : Rounding) :
    (roundUnits rm neg num sticky k).2 = true ↔ num % 2 ^ k ≠ 0 ∨ sticky = true := by
  simp [roundUnits]

theorem roundUnits_minusInfinity :
    roundUnits .minusInfinity neg num sticky k = roundUnits .plusInfinity (!neg) num sticky k := by
  simp [roundUnits]

/-- A positive value is rounded up to the next multiple unless it is one. -/
theorem roundUnits_plusInfinity_pos :
    (roundUnits .plusInfinity false num sticky k).1 =
      num / 2 ^ k + if num % 2 ^ k ≠ 0 ∨ sticky = true then 1 else 0 := by
  by_cases h : num % 2 ^ k = 0 <;> cases sticky <;> simp [roundUnits, h]

theorem roundUnits_plusInfinity_neg : (roundUnits .plusInfinity true num sticky k).1 = num / 2 ^ k := by
  simp [roundUnits]

/-- To nearest a value is rounded up if its remainder exceeds half a unit, or is half a unit and the quotient odd. -/
theorem roundUnits_nearest :
    (roundUnits .nearest neg num sticky k).1 =
      num / 2 ^ k + if 2 ^ k < 2 * (num % 2 ^ k) ∨
        (2 * (num % 2 ^ k) = 2 ^ k ∧ (sticky = true ∨ num / 2 ^ k % 2 = 1)) then 1 else 0 := by
  by_cases h : 2 ^ k < 2 * (num % 2 ^ k) <;> by_cases h' : 2 * (num % 2 ^ k) = 2 ^ k <;> cases sticky <;>
    simp [roundUnits, h, h', apply_ite]

/-- Settles O59: the value is `2 ^ k` times the quotient and a remainder, from which each mode takes its multiple. -/
theorem roundingToMultiples : Obligations.RoundingToMultiples := by
  intro neg num k sticky hsticky q
  have hdiv : num / 2 ^ k * 2 ^ k + num % 2 ^ k = num := Nat.div_add_mod' num (2 ^ k)
  have hrest : num % 2 ^ k < 2 ^ k := Nat.mod_lt _ (by positivity)
  have heven : sticky = true → 2 ^ k % 2 = 0 := fun hs => by
    rw [← Nat.sub_add_cancel (hsticky hs), pow_succ, Nat.mul_mod_left]
  refine ⟨?nearest, ?tie, ?floor, ?ceil, ?plus, ?plusNeg, roundUnits_minusInfinity ..,
    fun rm => roundUnits_inexact neg num k sticky rm⟩
  case nearest =>
    simp only [q, roundUnits_nearest, Nat.add_mul]
    cases sticky with
    | true =>
      have hk := heven rfl
      simp only [if_true, true_or, and_true]
      split <;> omega
    | false =>
      simp only [Bool.false_eq_true, if_false, false_or]
      split <;> omega
  case tie =>
    intro htie hs
    simp only [q, roundUnits_nearest, htie, hs, Bool.false_eq_true, lt_irrefl, false_or, true_and]
    split <;> omega
  case floor => simp only [q, roundUnits_zero]; omega
  case ceil => simp only [q, roundUnits_zero, Nat.add_mul]; omega
  case plus =>
    rintro rfl
    simp only [q, roundUnits_plusInfinity_pos, Nat.add_mul]
    cases sticky with
    | true => simp only [if_true, or_true]; omega
    | false =>
      simp only [Bool.false_eq_true, if_false, or_false]
      split <;> omega
  case plusNeg => rintro rfl; exact roundUnits_plusInfinity_neg ..

end

/-! ### Stepping (40_cdp_common.md R164) -/

theorem toNat_bank_single (r x : BitVec 5) :
    ((r &&& ~~~7#5) ||| (x &&& 7#5)).toNat = 8 * (r.toNat / 8) + x.toNat % 8 := by
  revert r x; decide

theorem toNat_bank_double (r x : BitVec 5) :
    ((r &&& ~~~3#5) ||| (x &&& 3#5)).toNat = 4 * (r.toNat / 4) + x.toNat % 4 := by
  revert r x; decide

/-- Settles O12: the index is the number modulo the size of the bank, which divides the 32 of the register number. -/
theorem steppingStaysInTheBank : Obligations.SteppingStaysInTheBank := by
  intro stride r k
  constructor
  · rw [stepReg, toNat_bank_single, BitVec.toNat_add, BitVec.toNat_ofNat]
    omega
  · rw [stepReg, toNat_bank_double, BitVec.toNat_add, BitVec.toNat_ofNat]
    omega

/-! ### Operands and results in RunFast mode (40_cdp_common.md R185, R188, R191) -/

theorem fpZero_cls (p : Prec) (neg : Bool) : (fpZero neg).cls p = .zero := by simp [fpZero, Fp.cls]

/-- The flush of a subnormal operand makes no NaN and takes none away. -/
theorem runFastOperand_isNan (p : Prec) (a : Fp) : (runFastOperand p a).isNan p = a.isNan p := by
  unfold runFastOperand
  split
  next h =>
    have hcls : a.cls p = .subnormal := by simpa [Fp.isSub] using h
    simp only [Fp.isNan, fpZero_cls, hcls]
    rfl
  next => rfl

theorem runFastOperand_isSnan (p : Prec) (a : Fp) : (runFastOperand p a).isSnan p = a.isSnan p := by
  unfold runFastOperand
  split
  next h =>
    have hcls : a.cls p = .subnormal := by simpa [Fp.isSub] using h
    simp only [Fp.isSnan, fpZero_cls, hcls]
    rfl
  next => rfl

theorem anyNan_map_runFastOperand (p : Prec) (ops : List Fp) :
    anyNan p (ops.map (runFastOperand p)) = anyNan p ops := by
  simp [anyNan, List.any_map, Function.comp_def, runFastOperand_isNan]

theorem anySnan_map_runFastOperand (p : Prec) (ops : List Fp) :
    anySnan p (ops.map (runFastOperand p)) = anySnan p ops := by
  simp [anySnan, List.any_map, Function.comp_def, runFastOperand_isSnan]

/-- No operation raises IDC by its result: only the flush of an operand does. -/
theorem finish_idc (p : Prec) (fz : Bool) (rm : Rounding) (o : Outcome) : (finish p fz rm o).flags.idc = false := by
  cases o with
  | invalid | divideByZero | special => rfl
  | value v =>
    simp only [finish, fpRound]
    split
    · rfl
    · split
      · rfl
      · split <;> rfl

theorem ftoiResult_idc (p : Prec) (signed : Bool) (rm : Rounding) (a : Fp) :
    (ftoiResult p signed rm a).2.idc = false := by
  simp only [ftoiResult, apply_ite Prod.snd, apply_ite Cumulative.idc, ite_self]

/-- The flags of a result that raises no IDC, with the flag of the flush. -/
theorem Cumulative.idc_or {f : Cumulative} (h : f.idc = false) (b : Bool) :
    Cumulative.or { idc := b } f = { f with idc := b } := by
  simp [Cumulative.or, h]

theorem Cumulative.none_or (f : Cumulative) : Cumulative.or {} f = f := rfl

/-- A pattern and its flags as what an iteration answers. -/
def registerEffect (r : BitVec 64 × Cumulative) : Effect × Cumulative := (.reg r.1, r.2)

section
variable {w : Word} (hw : Fpscr.runFast w = true)
include hw

theorem flushH_runFast (p : Prec) (a : Fp) : flushH p w a = runFastOperand p a := by
  obtain ⟨hfz, -, hide, -⟩ := runFast_bits hw
  simp [flushH, runFastOperand, hfz, hide]

theorem flushFlag_runFast (p : Prec) (ops : List Fp) : flushFlag p w ops = { idc := ops.any (Fp.isSub p) } := by
  obtain ⟨hfz, -, hide, -⟩ := runFast_bits hw
  simp [flushFlag, anySub, hfz, hide]

/-- The completed result of the hardware is the one `runFastResult` states. -/
theorem asEffect_runFast (p : Prec) (ops : List Fp) (o : Outcome) :
    asEffect p (flushFlag p w ops) (completeH p w (ops.map (runFastOperand p)) o) =
      registerEffect (runFastResult p p w ops o) := by
  obtain ⟨hfz, -⟩ := runFast_bits hw
  rw [asEffect, completeH, runFastResult, flushFlag_runFast hw, anyNan_map_runFastOperand, anySnan_map_runFastOperand,
    hfz]
  cases h : ops.any (Fp.isNan p) <;> simp [registerEffect, anyNan, anySnan, h, Cumulative.or, finish_idc]

/-- The same for FNMUL, whose result is not negated if an operand is a NaN. -/
theorem asEffect_runFastNegated (p : Prec) (ops : List Fp) (o : Outcome) :
    asEffect p (flushFlag p w ops)
        (if anyNan p (ops.map (runFastOperand p)) then completeH p w (ops.map (runFastOperand p)) o
          else (completeH p w (ops.map (runFastOperand p)) o).negate true (Fpscr.fz w)) =
      registerEffect (runFastNegated p w ops o) := by
  obtain ⟨hfz, -⟩ := runFast_bits hw
  rw [asEffect, completeH, runFastNegated, flushFlag_runFast hw, anyNan_map_runFastOperand,
    anySnan_map_runFastOperand, hfz]
  cases h : ops.any (Fp.isNan p) with
  | true => simp [registerEffect, anyNan, anySnan, h, Cumulative.or]
  | false =>
    simp only [registerEffect, anyNan, h, Bool.false_eq_true, if_false, Rounded.negate, Bool.true_and]
    cases hioc : (finish p true (Fpscr.rmode w) o).flags.ioc <;>
      cases hufc : (finish p true (Fpscr.rmode w) o).flags.ufc <;>
        simp [Cumulative.or, finish_idc, hioc, hufc]

theorem addH_runFast (p : Prec) (sub : Bool) (n m : Fp) :
    (addH p w sub n m).2 = registerEffect (runFastResult p p w [n, m]
      (addOutcome p (Fpscr.rmode w) (runFastOperand p n) ((runFastOperand p m).flip sub))) := by
  simp only [addH, flushH_runFast hw]
  exact asEffect_runFast hw p [n, m] _

theorem mulH_runFast (p : Prec) (neg : Bool) (n m : Fp) :
    (mulH p w neg n m).2 = registerEffect ((if neg then runFastNegated p else runFastResult p p) w [n, m]
      (mulOutcome p (runFastOperand p n) (runFastOperand p m))) := by
  simp only [mulH, flushH_runFast hw]
  cases neg with
  | true => exact asEffect_runFastNegated hw p [n, m] _
  | false =>
    refine Eq.trans ?_ (asEffect_runFast hw p [n, m] _)
    simp [Rounded.negate]

theorem divH_runFast (p : Prec) (n m : Fp) :
    (divH p w n m).2 = registerEffect (runFastResult p p w [n, m]
      (divOutcome p (runFastOperand p n) (runFastOperand p m))) := by
  simp only [divH, flushH_runFast hw]
  exact asEffect_runFast hw p [n, m] _

theorem sqrtH_runFast (p : Prec) (m : Fp) :
    (sqrtH p w m).2 = registerEffect (runFastResult p p w [m] (sqrtOutcome p (runFastOperand p m))) := by
  simp only [sqrtH, flushH_runFast hw]
  exact asEffect_runFast hw p [m] _

theorem cvtH_runFast (p : Prec) (m : Fp) :
    (cvtH p w m).2 = registerEffect (runFastResult p p.other w [m] (cvtOutcome p p.other (runFastOperand p m))) := by
  obtain ⟨hfz, -⟩ := runFast_bits hw
  simp only [cvtH, flushH_runFast hw, flushFlag_runFast hw, runFastOperand_isNan, runFastOperand_isSnan, asEffect, hfz,
    runFastResult, List.any_cons, List.any_nil, Bool.or_false]
  cases h : m.isNan p <;> simp [registerEffect, Cumulative.or, finish_idc]

theorem toIntH_runFast (p : Prec) (signed towardsZero : Bool) (m : Fp) :
    (toIntH p w signed towardsZero m).2 =
      registerEffect ((ftoiResult p signed (roundingOf w towardsZero) (runFastOperand p m)).1.setWidth 64,
        { (ftoiResult p signed (roundingOf w towardsZero) (runFastOperand p m)).2 with idc := m.isSub p }) := by
  simp [toIntH, flushH_runFast hw, flushFlag_runFast hw, registerEffect, Cumulative.or, ftoiResult_idc]

theorem macH_runFast (p : Prec) (negP negA : Bool) (d n m : Fp) :
    (macH p w negP negA d n m).2 = registerEffect (runFastMac p w negP negA d n m) := by
  obtain ⟨hfz, -⟩ := runFast_bits hw
  have hnan := anyNan_map_runFastOperand p [d, n, m]
  simp only [List.map_cons, List.map_nil] at hnan
  cases h : anyNan p [d, n, m] with
  | true =>
    have h' : [d, n, m].any (Fp.isNan p) = true := h
    rw [h] at hnan
    simp [macH, asEffect, completeH, runFastMac, flushH_runFast hw, flushFlag_runFast hw, hnan, h', registerEffect,
      Cumulative.or, anySnan, runFastOperand_isSnan]
  | false =>
    have h' : [d, n, m].any (Fp.isNan p) = false := h
    rw [h] at hnan
    have hnm : anyNan p [runFastOperand p n, runFastOperand p m] = false := by
      simp_all [anyNan]
    simp only [macH, asEffect, completeH, runFastMac, flushH_runFast hw, flushFlag_runFast hw, hnan, h', hnm, hfz,
      Bool.not_false, Bool.not_true, Bool.false_eq_true, if_false]
    split <;> simp [registerEffect, Cumulative.or, finish_idc]

end

/-- In RunFast mode a scalar instruction that writes a register is complete with what its iteration answers. -/
theorem exec_runFast_wrote {i : Instr} {c : Cdp} {s : State} (hrun : s.Runs i c) (hs : c.Scalar s.fpscr)
    (hw : Fpscr.runFast s.fpscr = true) {r : BitVec 64 × Cumulative}
    (hr : (iterH c.op c.p s.fpscr (s.source c)).2 = registerEffect r) : exec i s = .next (s.wrote c.dPrec c.d r) := by
  rw [exec_runFast_scalar hrun hs hw, hr]
  rfl

/-- The conversions are scalar whatever LEN and the bank are (40_cdp_common.md R162). -/
theorem scalar_of_runs {i : Instr} {c : Cdp} {s : State} (hrun : s.Runs i c) (hv : c.op.canVector = false) :
    c.Scalar s.fpscr := by
  have ⟨_, _, hrefusal, _⟩ := hrun
  exact ⟨legalLenStride_of_refusal_none hrefusal, .inl hv⟩

/-- Settles O15: a subtraction inverts the sign of the flushed operand. -/
theorem addSubtractInRunFast : Obligations.AddSubtractInRunFast :=
  fun _ _ _ _ _ _ _ hrun hs hw => exec_runFast_wrote hrun hs hw (addH_runFast hw ..)

/-- Settles O16, by what the iteration of FMUL and FNMUL answers. -/
theorem multiplyInRunFast : Obligations.MultiplyInRunFast :=
  fun _ _ _ _ _ _ _ hrun hs hw => exec_runFast_wrote hrun hs hw (mulH_runFast hw ..)

/-- Settles O17, by what the two stages of the multiply-accumulate answer. -/
theorem multiplyAccumulateInRunFast : Obligations.MultiplyAccumulateInRunFast :=
  fun _ _ _ _ _ _ _ _ hrun hs hw => exec_runFast_wrote hrun hs hw (macH_runFast hw ..)

/-- Settles O18, by what the iterations of FDIV and FSQRT answer. -/
theorem divideAndSquareRootInRunFast : Obligations.DivideAndSquareRootInRunFast :=
  ⟨fun _ _ _ _ _ _ hrun hs hw => exec_runFast_wrote hrun hs hw (divH_runFast hw ..),
    fun _ _ _ _ _ _ hrun hs hw => exec_runFast_wrote hrun hs hw (sqrtH_runFast hw ..)⟩

/-- Settles O22: the destination is of the other format. -/
theorem precisionConversionsInRunFast : Obligations.PrecisionConversionsInRunFast :=
  fun _ _ _ _ _ _ hrun hw => exec_runFast_wrote hrun (scalar_of_runs hrun rfl) hw (cvtH_runFast hw ..)

/-- Settles O24: the destination is a single-precision register. -/
theorem floatToIntegerInRunFast : Obligations.FloatToIntegerInRunFast :=
  fun _ _ _ _ _ _ _ _ hrun hw => exec_runFast_wrote hrun (scalar_of_runs hrun rfl) hw (toIntH_runFast hw ..)

/-! ### Integers to floating point, and the copies (42_fmac_copy_compare_convert.md R251 to R256, R271 to R274) -/

/-- A scalar instruction whose iteration has no condition is complete with what that iteration answers. -/
theorem exec_scalar_clear {i : Instr} {c : Cdp} {s : State} (hrun : s.Runs i c) (hs : c.Scalar s.fpscr)
    (hclear : (iterH c.op c.p s.fpscr (s.source c)).1.clear = true) {r : BitVec 64 × Cumulative}
    (hr : (iterH c.op c.p s.fpscr (s.source c)).2 = registerEffect r) : exec i s = .next (s.wrote c.dPrec c.d r) := by
  rw [exec_runs hrun, State.runCdp_scalar_clear _ _ _ hs hclear, hr]
  rfl

/-- Settles O23: an integer has no condition but IXE. -/
theorem integerToFloatConversions : Obligations.IntegerToFloatConversions := by
  intro s i signed p d n m hrun hixe r
  refine exec_scalar_clear hrun (scalar_of_runs hrun rfl) ?_ ?_
  · simp [iterH, fromIntH, hixe, Check.clear, Check.must]
  · have hm : ((s.source ⟨.fromInt signed, p, d, n, m⟩).m).setWidth 32 = s.readS m := by
      simp [State.source, Cdp.mPrec, State.readReg]
    simp only [iterH, fromIntH, hm]
    rfl

theorem State.raise_none (s : State) : s.raise {} = s := by
  rw [State.raise, Fpscr.raise_none]
  rfl

/-- A copy that executes normally moves bits and does nothing else. -/
theorem exec_copy {i : Instr} {k : CopyKind} {p : Prec} {d m : BitVec 5} {s : State}
    (hi : cdpOf i = some ⟨.copy k, p, d, 0#5, m⟩) (hwf : i.WellFormed) (hs : s.Ready i.cond)
    (hixe : Fpscr.ixe s.fpscr = false) (hscalar : Cdp.Scalar ⟨.copy k, p, d, 0#5, m⟩ s.fpscr) :
    exec i s = .next (s.writeReg p d (copyBits p k (s.readReg p m))).advance := by
  have hrun : s.Runs i ⟨.copy k, p, d, 0#5, m⟩ := ⟨hi, hwf, Cdp.refusal_scalar hscalar, hs⟩
  rw [exec_scalar_clear (r := (copyBits p k (s.readReg p m), {})) hrun hscalar ?_ rfl, State.wrote, State.raise_none]
  · rfl
  · simp [iterH, copyH, hixe, Check.clear, Check.must]

/-- The bits of a single-precision pattern are those of its register. -/
theorem setWidth_copyBits_single (k : CopyKind) (v : Word) :
    (copyBits .single k (v.setWidth 64)).setWidth 32 =
      match k with
      | .copy => v
      | .abs => v &&& 0x7FFFFFFF#32
      | .neg => v ^^^ 0x80000000#32 := by
  cases k <;> simp [copyBits]

/-- Settles O19: each copy is `exec_copy` with its kind, and a register its pattern. -/
theorem copiesMoveBits : Obligations.CopiesMoveBits := by
  intro s c hs hixe hlegal
  refine ⟨fun d m hd => ?single, fun d m hd => ?double⟩
  case single =>
    have hscalar (k : CopyKind) : Cdp.Scalar ⟨.copy k, .single, d, 0#5, m⟩ s.fpscr :=
      ⟨hlegal, .inr (hd.imp_right (by simp [inBank0]))⟩
    have hexec {i : Instr} {k : CopyKind} (hi : cdpOf i = some ⟨.copy k, .single, d, 0#5, m⟩) (hwf : i.WellFormed)
        (hc : i.cond = c) := exec_copy hi hwf (hc ▸ hs) hixe (hscalar k)
    refine ⟨(hexec (i := .fcpys c d m) rfl rfl rfl).trans ?_, (hexec (i := .fabss c d m) rfl rfl rfl).trans ?_,
      (hexec (i := .fnegs c d m) rfl rfl rfl).trans ?_⟩ <;>
      simp only [State.writeReg, State.readReg, setWidth_copyBits_single]
  case double =>
    have hscalar (k : CopyKind) : Cdp.Scalar ⟨.copy k, .double, ofD d, 0#5, ofD m⟩ s.fpscr :=
      ⟨hlegal, .inr (hd.imp_right fun h => by simp [inBank0, ofD]; omega)⟩
    have hexec {i : Instr} {k : CopyKind} (hi : cdpOf i = some ⟨.copy k, .double, ofD d, 0#5, ofD m⟩)
        (hwf : i.WellFormed) (hc : i.cond = c) := exec_copy hi hwf (hc ▸ hs) hixe (hscalar k)
    refine ⟨(hexec (i := .fcpyd c d m) rfl rfl rfl).trans ?_, (hexec (i := .fabsd c d m) rfl rfl rfl).trans ?_,
      (hexec (i := .fnegd c d m) rfl rfl rfl).trans ?_⟩ <;>
      simp [State.writeReg, State.readReg, copyBits]

end Sys2Proof.Machine

/-! Proofs, bounces: the conditions of a scalar iteration and the exceptional state, the trigger instruction
(40_cdp_common.md R188 to R193; 60_exceptions.md R412 to R427). -/

namespace Sys2Proof.Machine

/-! ### The conditions of an iteration (40_cdp_common.md R192, R193) -/

section
variable (c : Check) (certain ovf unf b : Bool)

@[simp] theorem Check.threshold_ixe : (c.threshold certain ovf unf).ixe = c.ixe := rfl
@[simp] theorem Check.threshold_input : (c.threshold certain ovf unf).input = c.input := rfl
@[simp] theorem Check.threshold_inSub : (c.threshold certain ovf unf).inSub = c.inSub := rfl
@[simp] theorem Check.addInvalid_ixe : (c.addInvalid b).ixe = c.ixe := rfl
@[simp] theorem Check.addInvalid_input : (c.addInvalid b).input = c.input := rfl
@[simp] theorem Check.addInvalid_inSub : (c.addInvalid b).inSub = c.inSub := rfl

end

/-- The zero of a compare with zero makes no exception of its own. -/
theorem plusZero_cls (p : Prec) : plusZero.isNan p = false ∧ plusZero.isSub p = false := by
  constructor <;> simp only [plusZero, Fp.isNan, Fp.isSub, fpZero_cls] <;> rfl

theorem iterH_ixe {o : CdpOp} (h : o.isCopy = false) (p : Prec) (w : Word) (x : Source) :
    (iterH o p w x).1.ixe = Fpscr.ixe w := by
  cases o with
  | copy => cases h
  | add | mul | mac | div | sqrt | cmp | cmpz | cvt | fromInt | toInt =>
    simp [iterH, addH, mulH, macH, divH, sqrtH, cmpH, cvtH, fromIntH, toIntH, sourceCheck]

/-- An iteration is an Input exception by its floating-point source operands alone (40_cdp_common.md R193). -/
theorem iterH_input (c : Cdp) (w : Word) (s : State) :
    (iterH c.op c.p w (s.source c)).1.input =
      (!c.op.isCopy && ((!Fpscr.dn w && anyNan c.p (s.operands c)) || (!Fpscr.fz w && anySub c.p (s.operands c)))) := by
  obtain ⟨o, p, d, n, m⟩ := c
  obtain ⟨hnan, hsub⟩ := plusZero_cls p
  cases o <;>
    simp [iterH, addH, mulH, macH, divH, sqrtH, cmpH, cvtH, copyH, fromIntH, toIntH, sourceCheck, State.operands,
      CdpOp.readsD, CdpOp.readsN, CdpOp.isCopy, State.source, State.readFp, Cdp.mPrec, anyNan, anySub, hnan, hsub]

theorem Check.must_of_ixe {c : Check} (h : c.ixe = true) : c.must = true := by simp [Check.must, h]

theorem Check.must_of_input {c : Check} (h : c.input = true) : c.must = true := by simp [Check.must, h]

/-- A bounce has INV exactly if the iteration is an Input exception (60_exceptions.md R416). -/
theorem State.decideBounce_inv {s : State} {c : Check} {fl : BounceFlags} (h : (s.decideBounce c).1 = some fl) :
    fl.inv = c.input := by
  simp only [State.decideBounce] at h
  split at h
  · exact (Option.some.inj h) ▸ rfl
  · cases h

theorem BounceFlags.word_inv (f : BounceFlags) : f.word.getLsbD 7 = f.inv := by
  rcases f with ⟨a, b, c, d⟩
  revert a b c d
  decide

theorem Fpexc.bounce_inv (w : Word) (n : Nat) (f : BounceFlags) :
    bitAt (Fpexc.bounce w n f) 7 = (bitAt w 7 || f.inv) := by
  rw [bitAt, Fpexc.getLsbD_bounce _ _ _ _ (by omega), BounceFlags.word_inv]
  rfl

/-! ### The exceptional state (60_exceptions.md R415, R423) -/

/-- The flag IDC is the only one a bounce may raise. -/
theorem raise_idc_and_mask (w : Word) (b : Bool) :
    Fpscr.raise w { idc := b } &&& ~~~0x00000080#32 = w &&& ~~~0x00000080#32 :=
  raise_and_mask (by cases b <;> decide) w

@[simp] theorem Cdp.dstMasks_fixed (c : Cdp) (w : Word) : c.dstMasks ⟨1, false, false⟩ w 0 1 = c.dstMask := by
  simp [Cdp.dstMasks, Cdp.iterations, unionMask]

@[simp] theorem Cdp.srcMasks_fixed (c : Cdp) (w : Word) : c.srcMasks ⟨1, false, false⟩ w 0 1 = c.srcMask := by
  simp [Cdp.srcMasks, Cdp.iterations, unionMask]

/-- A scalar iteration that bounces enters the exceptional state and changes nothing else. -/
theorem State.bounced (s : State) (i : Instr) (c : Cdp) (n : Nat) (b : Bool) (fl : BounceFlags) :
    s.Bounced (State.bounce { s with draws := n } (encode i) c ⟨1, false, false⟩ s.fpscr 0 b fl).advance i c where
  ex := by simp [Fpexc.bounce_ex]
  vecitr := by simp [Fpexc.bounce_vecitr, vecitrOf]
  en := by simp [Fpexc.bounce_en]
  fp2v := by simp [Fpexc.bounce_fp2v]
  fpinst := by simp [Cdp.exceptionalWord]
  fpinst2 := by simp
  win := by simp
  sreg := by simp
  written := by simp
  fpscr := by rw [State.advance_fpscr, State.bounce_fpscr, raise_idc_and_mask]
  pc := by simp
  core :=
    have h := ((IterationFrame.refl s c).draws n).core.bounce (encode i) c ⟨1, false, false⟩ s.fpscr 0 b fl
    { h with env := { h.env with } }

/-- A scalar instruction whose iteration must bounce does, with INV set if it is an Input exception. -/
theorem exec_scalar_must {i : Instr} {c : Cdp} {s : State} (hrun : s.Runs i c) (hs : c.Scalar s.fpscr)
    (hmust : (iterH c.op c.p s.fpscr (s.source c)).1.must = true) :
    ∃ t, exec i s = .next t ∧ s.Bounced t i c ∧
      ((iterH c.op c.p s.fpscr (s.source c)).1.input = true → bitAt t.fpexc 7 = true) := by
  obtain ⟨u, fl, hdecide, hrunCdp⟩ := s.runCdp_scalar_must (encode i) c hs hmust
  obtain ⟨n, hn⟩ := s.decideBounce_snd (iterH c.op c.p s.fpscr (s.source c)).1
  obtain rfl : u = { s with draws := n } := by rw [← hn, hdecide]
  refine ⟨_, (exec_runs hrun).trans (congrArg _ hrunCdp), s.bounced i c n _ fl, fun hinput => ?_⟩
  have hinv := State.decideBounce_inv (congrArg Prod.fst hdecide)
  rw [State.advance_fpexc, State.bounce_fpexc, Fpexc.bounce_inv, hinv, hinput, Bool.or_true]

/-- Settles O27: the operand makes the iteration an Input exception, whatever other condition holds. -/
theorem inputExceptionBounces : Obligations.InputExceptionBounces := by
  intro s i c hrun hs hcopy hops
  have hinput : (iterH c.op c.p s.fpscr (s.source c)).1.input = true := by
    rw [iterH_input, hcopy]
    rcases hops with ⟨hdn, hnan⟩ | ⟨hfz, hsub⟩
    · simp [hdn, anyNan, hnan]
    · simp [hfz, anySub, hsub]
  obtain ⟨t, ht, hbounced, hinv⟩ := exec_scalar_must hrun hs (Check.must_of_input hinput)
  exact ⟨t, ht, hbounced, hinv hinput⟩

/-- Settles O28: IXE = 1 is a condition of every iteration but a copy. -/
theorem inexactEnabledBounces : Obligations.InexactEnabledBounces := by
  intro s i c hrun hs hcopy hixe
  obtain ⟨t, ht, hbounced, -⟩ := exec_scalar_must hrun hs (Check.must_of_ixe ((iterH_ixe hcopy ..).trans hixe))
  exact ⟨t, ht, hbounced⟩

/-! ### The trigger instruction (60_exceptions.md R421, R422, R427) -/

/-- An instruction that accesses the coprocessor and is no CDP instruction is a transfer (60_exceptions.md R424). -/
theorem exec_transfer {i : Instr} (hc : cdpOf i = none) (ha : accessOf i = .vfp) (s : State) :
    ∃ writes reads go, exec i s = checked i .vfp (issueTransfer writes reads go) s := by
  cases i
  case fmxr | fmrx | fmstat => cases ha
  case fmsr | fmrs | fmdlr | fmrdl | fmdhr | fmrdh | fmdrr | fmrrd | fmsrr | fmrrs => exact ⟨_, _, _, rfl⟩
  case flds | fldd | fldmsIa | fldmsIaWb | fldmsDbWb | fldmdIa | fldmdIaWb | fldmdDbWb | fldmxIa | fldmxIaWb |
      fldmxDbWb => exact ⟨_, _, _, rfl⟩
  case fsts | fstd | fstmsIa | fstmsIaWb | fstmsDbWb | fstmdIa | fstmdIaWb | fstmdDbWb | fstmxIa | fstmxIaWb |
      fstmxDbWb => exact ⟨_, _, _, rfl⟩
  all_goals cases hc

theorem exec_sysAccess {i : Instr} {r : SysReg} (ha : accessOf i = .sys r) (s : State) :
    ∃ f, exec i s = sysAccess i r f s := by
  cases i
  case fmxr | fmrx | fmstat => cases ha; exact ⟨_, rfl⟩
  all_goals cases ha

section
variable {s : State} (hex : Fpexc.ex s.fpexc = true)
include hex

theorem exceptional_of_ex : s.exceptional = true := by simp [State.exceptional, hex]

/-- With the window closed a transfer is the trigger, whatever it transfers. -/
theorem issueTransfer_closed (hw : s.win = .closed) (writes reads : Word) (go : State → Result) :
    issueTransfer writes reads go s = trigger go s := by
  simp [issueTransfer, exceptional_of_ex hex, hw]

/-- An access to FPSCR is the trigger with the window closed by it. -/
theorem issueSerial_trigger (go : State → Result) : issueSerial true go s = trigger go s.closeWin := by
  simp [issueSerial, hex]

theorem noClosedTrigger_false (hw : s.win = .closed) : ¬ s.NoClosedTrigger := by
  simp [State.NoClosedTrigger, exceptional_of_ex hex, hw]

/-- The admitted instructions that are the trigger, each with the state it is the trigger in. -/
theorem exec_trigger {i : Instr} (ha : s.Admits i) (ho : ∀ c, cdpOf i = some c → c.overlapping s.fpscr = false)
    (hi : (accessOf i = .vfp ∧ s.win = .closed) ∨ accessOf i = .sys .fpscr) :
    ∃ go u, (u = s ∨ u = s.closeWin) ∧ exec i s = trigger go u := by
  have ⟨hcond, hacc, hwf⟩ := ha
  rcases hi with ⟨hvfp, hw⟩ | hsys
  · cases hc : cdpOf i with
    | some c =>
      refine ⟨startCdp (encode i) c, s, .inl rfl, ?_⟩
      rw [exec_admitted hc ha, issueCdp_closedTrigger (noClosedTrigger_false hex hw) (ho c hc)]
    | none =>
      obtain ⟨writes, reads, go, hexec⟩ := exec_transfer hc hvfp s
      refine ⟨go, s, .inl rfl, ?_⟩
      rw [hexec, checked_ready hcond (hvfp ▸ hacc) hwf, issueTransfer_closed hex hw]
  · obtain ⟨f, hexec⟩ := exec_sysAccess hsys s
    refine ⟨f, s.closeWin, .inr rfl, ?_⟩
    rw [hexec, sysAccess, checked_ready hcond (hsys ▸ hacc) hwf]
    exact issueSerial_trigger hex f

end

/-- Settles O31: at level H a trigger takes the exception, which closes the window itself. -/
theorem triggerInstructionBounces : Obligations.TriggerInstructionBounces := by
  intro s i hl ha hex ho hi
  obtain ⟨go, u, hu, hexec⟩ := exec_trigger hex ha ho hi
  refine ⟨?_, hex⟩
  rw [hexec]
  rcases hu with rfl | rfl
  · exact trigger_hardware hl go
  · exact trigger_hardware (s := s.closeWin) hl go

end Sys2Proof.Machine

/-! Proofs, short vectors: the registers of a vector, overlapping vectors, the independence of the elements
(40_cdp_common.md R161 to R170). -/

namespace Sys2Proof.Machine

/-! ### Register numbers and masks (30_encoding.md R124; 60_exceptions.md R423) -/

/-- The number names a register of the format: there are 16 of double precision. -/
def Prec.Names (p : Prec) (r : BitVec 5) : Prop := p = .double → r.toNat < 16

/-- The number of the register of the format that S`i` is or is a half of. -/
def Prec.slot (p : Prec) (i : Nat) : Nat :=
  match p with
  | .single => i
  | .double => i / 2

/-- The number of registers of a bank (40_cdp_common.md R161). -/
def Prec.bankSize (p : Prec) : Nat :=
  match p with
  | .single => 8
  | .double => 4

/-- What a register of the format holds when a pattern was written to it. -/
def Prec.held (p : Prec) (v : BitVec 64) : BitVec 64 :=
  match p with
  | .single => (v.setWidth 32).setWidth 64
  | .double => v

theorem ofD_names (p : Prec) (d : DReg) : p.Names (ofD d) := fun _ => by
  simp only [ofD, BitVec.toNat_setWidth]
  omega

theorem single_names (r : BitVec 5) : Prec.single.Names r := nofun

/-- The registers of a vector instruction are of its format. -/
theorem cdpOf_names {i : Instr} {c : Cdp} (h : cdpOf i = some c) (hv : c.op.canVector = true) :
    c.p.Names c.d ∧ c.p.Names c.n ∧ c.p.Names c.m := by
  have hzero : Prec.double.Names 0#5 := fun _ => by decide
  cases i <;> cases h
  case fmacs | fnmacs | fmscs | fnmscs | fmuls | fnmuls | fadds | fsubs | fdivs | fcpys | fabss | fnegs | fsqrts =>
    exact ⟨single_names _, single_names _, single_names _⟩
  case fmacd | fnmacd | fmscd | fnmscd | fmuld | fnmuld | faddd | fsubd | fdivd =>
    exact ⟨ofD_names _ _, ofD_names _ _, ofD_names _ _⟩
  case fcpyd | fabsd | fnegd | fsqrtd => exact ⟨ofD_names _ _, hzero, ofD_names _ _⟩
  all_goals cases hv

theorem toNat_dOf {r : BitVec 5} (h : Prec.double.Names r) : (dOf r).toNat = r.toNat := by
  have := h rfl
  simp only [dOf, BitVec.extractLsb'_toNat, Nat.shiftRight_zero]
  omega

theorem ofD_dOf {r : BitVec 5} (h : Prec.double.Names r) : ofD (dOf r) = r := by
  apply BitVec.eq_of_toNat_eq
  have := h rfl
  simp only [ofD, BitVec.toNat_setWidth, toNat_dOf h]
  omega

theorem getLsbD_one_shiftLeft (r : BitVec 5) (i : Nat) : (1#32 <<< r.toNat).getLsbD i = decide (i = r.toNat) := by
  have := r.isLt
  rw [Bool.eq_iff_iff]
  simp only [BitVec.getLsbD_shiftLeft, BitVec.getLsbD_one, Bool.and_eq_true, Bool.not_eq_true', decide_eq_true_eq,
    decide_eq_false_iff_not]
  omega

/-- The bits of a register's mask are the S registers it consists of. -/
theorem getLsbD_regMask {p : Prec} {r : BitVec 5} (h : p.Names r) (i : Nat) :
    (regMask p r).getLsbD i = true ↔ p.slot i = r.toNat := by
  cases p with
  | single => rw [regMask, getLsbD_one_shiftLeft, decide_eq_true_eq, Prec.slot]
  | double =>
    have hl := toNat_lowHalf (dOf r)
    have hh := toNat_highHalf (dOf r)
    rw [toNat_dOf h] at hl hh
    simp only [regMask, BitVec.getLsbD_or, getLsbD_one_shiftLeft, Bool.or_eq_true, decide_eq_true_eq]
    rw [Prec.slot, hl, hh]
    omega

/-- Every register of the format has an S register of its own. -/
theorem exists_slot {p : Prec} {r : BitVec 5} (h : p.Names r) : ∃ i < 32, p.slot i = r.toNat := by
  cases p with
  | single => exact ⟨r.toNat, r.isLt, rfl⟩
  | double =>
    have := h rfl
    exact ⟨2 * r.toNat, by omega, by simp [Prec.slot]⟩

theorem getLsbD_unionMask (ms : List Word) (i : Nat) : (unionMask ms).getLsbD i = ms.any (·.getLsbD i) := by
  rw [unionMask, getLsbD_foldl_or]
  simp

theorem and_ne_zero_iff (u v : Word) : (u &&& v != 0#32) = true ↔ ∃ i, u.getLsbD i = true ∧ v.getLsbD i = true := by
  rw [bne_iff_ne]
  constructor
  · intro h
    by_contra hnone
    refine h (BitVec.eq_of_getLsbD_eq fun i _ => ?_)
    rw [BitVec.getLsbD_and, BitVec.getLsbD_zero, ← Bool.not_eq_true, Bool.and_eq_true]
    exact fun hi => hnone ⟨i, hi⟩
  · rintro ⟨i, hu, hv⟩ h
    have hi := congrArg (fun x => x.getLsbD i) h
    simp [hu, hv] at hi

/-! ### Stepping (40_cdp_common.md R161, R164) -/

section
variable {p : Prec} {st : Nat} {r : BitVec 5} {k : Nat}

theorem toNat_stepReg_single : (stepReg .single st r k).toNat = 8 * (r.toNat / 8) + (r.toNat + k * st) % 8 :=
  (steppingStaysInTheBank st r k).1

theorem toNat_stepReg_double : (stepReg .double st r k).toNat = 4 * (r.toNat / 4) + (r.toNat + k * st) % 4 :=
  (steppingStaysInTheBank st r k).2

theorem stepReg_names (h : p.Names r) : p.Names (stepReg p st r k) := by
  rintro rfl
  have := h rfl
  rw [toNat_stepReg_double]
  omega

@[simp] theorem inBank0_stepReg : inBank0 p (stepReg p st r k) = inBank0 p r := by
  rw [Bool.eq_iff_iff]
  cases p with
  | single => simp only [inBank0, toNat_stepReg_single, decide_eq_true_eq]; omega
  | double => simp only [inBank0, toNat_stepReg_double, decide_eq_true_eq]; omega

/-- Steps add up. -/
theorem stepReg_stepReg (j : Nat) : stepReg p st (stepReg p st r k) j = stepReg p st r (k + j) := by
  apply BitVec.eq_of_toNat_eq
  cases p with
  | single => simp only [toNat_stepReg_single, Nat.add_mul]; omega
  | double => simp only [toNat_stepReg_double, Nat.add_mul]; omega

theorem strideOf_cases (w : Word) : strideOf w = 1 ∨ strideOf w = 2 := by
  unfold strideOf
  split
  · exact .inr rfl
  · exact .inl rfl

/-- The iterations of a vector that does not wrap name different registers (40_cdp_common.md R168). -/
theorem stepReg_injective {w : Word} {n j : Nat} (hfit : n * strideOf w ≤ p.bankSize) (hk : k < n) (hj : j < n)
    (h : stepReg p (strideOf w) r k = stepReg p (strideOf w) r j) : k = j := by
  have hnat := congrArg BitVec.toNat h
  rcases strideOf_cases w with hst | hst <;> rw [hst] at hfit hnat <;> cases p <;>
    simp only [toNat_stepReg_single, toNat_stepReg_double, Prec.bankSize] at hfit hnat <;> omega

end

/-! ### The masks of the operands (40_cdp_common.md R169) -/

/-- The register an operand names in iteration `k`. -/
def operandAt (p : Prec) (steps : Bool) (w : Word) (r : BitVec 5) (k : Nat) : BitVec 5 :=
  if steps then stepReg p (strideOf w) r k else r

theorem operandAt_names {p : Prec} {r : BitVec 5} (h : p.Names r) (steps : Bool) (w : Word) (k : Nat) :
    p.Names (operandAt p steps w r k) := by
  unfold operandAt
  split
  · exact stepReg_names h
  · exact h

theorem getLsbD_operandMask {p : Prec} {r : BitVec 5} (h : p.Names r) (steps : Bool) (w : Word) (n i : Nat) :
    (operandMask p steps w r n).getLsbD i = true ↔ ∃ k < n, p.slot i = (operandAt p steps w r k).toNat := by
  simp only [operandMask, getLsbD_unionMask, List.any_map, List.any_eq_true, List.mem_range, Function.comp_apply]
  exact exists_congr fun k => and_congr_right fun _ => getLsbD_regMask (operandAt_names h steps w k) i

/-- Two operands share a register exactly if they name the same one in some iterations. -/
theorem operandMask_and_ne_zero {p : Prec} {d r : BitVec 5} (hd : p.Names d) (hr : p.Names r) (steps : Bool) (w : Word)
    (n : Nat) :
    (operandMask p true w d n &&& operandMask p steps w r n != 0#32) = true ↔
      ∃ k < n, ∃ j < n, stepReg p (strideOf w) d k = operandAt p steps w r j := by
  simp only [and_ne_zero_iff, getLsbD_operandMask hd, getLsbD_operandMask hr]
  constructor
  · rintro ⟨i, ⟨k, hk, hik⟩, j, hj, hij⟩
    exact ⟨k, hk, j, hj, BitVec.eq_of_toNat_eq (hik.symm.trans hij)⟩
  · rintro ⟨k, hk, j, hj, h⟩
    obtain ⟨i, -, hi⟩ := exists_slot (operandAt_names hr steps w j)
    exact ⟨i, ⟨k, hk, by rw [hi, ← h]; rfl⟩, j, hj, hi⟩

section
variable {c : Cdp} {w : Word}

/-- A vector has its destination outside bank 0 and LEN + 1 iterations; Fm steps outside bank 0
(40_cdp_common.md R161). -/
theorem shape_of_stepsDN (hs : (c.shape w).stepsDN = true) :
    inBank0 c.p c.d = false ∧ (c.shape w).iters = Fpscr.len w + 1 ∧ (c.shape w).stepsM = !inBank0 c.p c.m := by
  unfold Cdp.shape at hs ⊢
  by_cases hscalar : (!c.op.canVector || Fpscr.len w == 0 || inBank0 c.p c.d) = true
  · rw [if_pos hscalar] at hs
    cases hs
  · have hb : inBank0 c.p c.d = false := by simp_all
    rw [if_neg hscalar]
    cases hm : inBank0 c.p c.m <;> exact ⟨hb, rfl, rfl⟩

/-- A vector overlaps if a stepping source is another vector that shares a register with the destination; a source in
bank 0 shares none (40_cdp_common.md R169). -/
theorem overlaps_iff (hn : c.p.Names c.d ∧ c.p.Names c.n ∧ c.p.Names c.m) (hs : (c.shape w).stepsDN = true) :
    c.overlaps (c.shape w) w = true ↔ ∃ r, c.SteppingSource r ∧ r ≠ c.d ∧ c.SharesVector w r := by
  obtain ⟨hd, hn, hm⟩ := hn
  obtain ⟨hb, hiters, hstepsM⟩ := shape_of_stepsDN hs
  have hshares (r : BitVec 5) (hr : c.p.Names r) :
      (operandMask c.p true w c.d (c.shape w).iters &&& operandMask c.p true w r (c.shape w).iters != 0#32) = true ↔
        c.SharesVector w r := by
    rw [operandMask_and_ne_zero hd hr, hiters]
    simp only [Nat.lt_succ_iff, Cdp.SharesVector, operandAt, if_true]
    exact ⟨fun ⟨k, hk, j, hj, h⟩ => ⟨k, j, hk, hj, h⟩, fun ⟨k, j, hk, hj, h⟩ => ⟨k, hk, j, hj, h⟩⟩
  have hfixed (h0 : inBank0 c.p c.m = true) :
      ¬ (operandMask c.p true w c.d (c.shape w).iters &&& operandMask c.p false w c.m (c.shape w).iters != 0#32) =
        true := by
    rw [operandMask_and_ne_zero hd hm]
    rintro ⟨k, -, j, -, h⟩
    have := congrArg (inBank0 c.p) h
    simp [operandAt, hb, h0] at this
  rw [Cdp.overlaps, hstepsM]
  cases h0 : inBank0 c.p c.m with
  | true =>
    simp only [Bool.or_eq_true, Bool.and_eq_true, hshares _ hn, Bool.not_true, hfixed h0, Cdp.SteppingSource, h0,
      bne_iff_ne, false_and, or_false, reduceCtorEq]
    exact ⟨fun ⟨⟨h, hsh⟩, hne⟩ => ⟨c.n, ⟨h, rfl⟩, hne, hsh⟩, fun ⟨r, ⟨h, hr⟩, hne, hsh⟩ => hr ▸ ⟨⟨h, hr ▸ hsh⟩, hr ▸ hne⟩⟩
  | false =>
    simp only [Bool.or_eq_true, Bool.and_eq_true, hshares _ hn, hshares _ hm, Bool.not_false, Cdp.SteppingSource, h0,
      bne_iff_ne, Bool.true_and, Bool.not_eq_true', beq_eq_false_iff_ne, true_and]
    constructor
    · rintro (⟨⟨h, hsh⟩, hne⟩ | ⟨hsh, hne⟩)
      · exact ⟨c.n, .inl ⟨h, rfl⟩, hne, hsh⟩
      · exact ⟨c.m, .inr rfl, hne, hsh⟩
    · rintro ⟨r, ⟨h, rfl⟩ | rfl, hne, hsh⟩
      · exact .inl ⟨⟨h, hsh⟩, hne⟩
      · exact .inr ⟨hsh, hne⟩

end

theorem wraps_iff (c : Cdp) (sh : Shape) (w : Word) : c.wraps sh w = true ↔ c.p.bankSize < sh.iters * strideOf w :=
  decide_eq_true_iff

/-- What `Cdp.refusal` finds of a vector with legal LEN and STRIDE that does not wrap. -/
theorem refusal_of_fits {c : Cdp} {w : Word} (hfits : c.VectorFits w) :
    c.refusal w = if c.overlaps (c.shape w) w then some .vectorOverlap else none := by
  obtain ⟨hl, hv, hlen, hb, hbank⟩ := hfits
  obtain ⟨hs, hiters⟩ := shape_vector hv hlen hb
  have hwraps : ¬ c.wraps (c.shape w) w = true := by
    rw [wraps_iff, hiters]
    exact Nat.not_lt.mpr hbank
  simp [Cdp.refusal, hl, hs, hwraps]

/-- Overlapping vectors are refused in every state (60_exceptions.md R435). -/
theorem issueCdp_overlap {word : Word} {c : Cdp} {s : State} (hr : c.refusal s.fpscr = some .vectorOverlap)
    (ho : c.overlapping s.fpscr = true) : issueCdp word c s = .refused .vectorOverlap := by
  by_cases hn : s.NoClosedTrigger
  · exact issueCdp_refusal hn hr
  · obtain ⟨he, hw⟩ := not_or.mp hn
    simp [issueCdp, Bool.not_eq_false _ ▸ he, not_not.mp hw, ho]

/-- Settles O11: the masks overlap exactly if a stepping source is another vector and shares a register. -/
theorem overlappingVectorsAreRefused : Obligations.OverlappingVectorsAreRefused := by
  intro i c s hc hwf hcond ha hfits
  have ⟨hl, hv, hlen, hb, _⟩ := hfits
  obtain ⟨hs, -⟩ := shape_vector hv hlen hb
  have hrefusal := refusal_of_fits hfits
  have hoverlaps := overlaps_iff (cdpOf_names hc hv) hs
  refine ⟨fun r hr hne hshares => ?overlap, fun he hlegal => ?legal⟩
  case overlap =>
    have ho := hoverlaps.mpr ⟨r, hr, hne, hshares⟩
    rw [exec_admitted hc ⟨hcond, (accessOf_cdp hc).symm ▸ ha, hwf⟩]
    exact issueCdp_overlap (hrefusal.trans (if_pos ho)) (by simp [Cdp.overlapping, hl, hs, ho])
  case legal =>
    have ho : ¬ c.overlaps (c.shape s.fpscr) s.fpscr = true := fun h => by
      obtain ⟨r, hr, hne, hshares⟩ := hoverlaps.mp h
      exact (hlegal r hr).elim hne fun hnot => hnot hshares
    exact ⟨_, exec_runs ⟨hc, hwf, hrefusal.trans (if_neg ho), hcond, ha, he⟩⟩

/-! ### The elements of a vector (40_cdp_common.md R167) -/

/-- A register of a format after a register of that format was written. -/
theorem State.readReg_writeReg (s : State) {p : Prec} {q r : BitVec 5} (hq : p.Names q) (hr : p.Names r)
    (v : BitVec 64) : (s.writeReg p q v).readReg p r = if r = q then p.held v else s.readReg p r := by
  split
  next h =>
    subst h
    cases p with
    | single => exact congrArg (BitVec.setWidth 64) (s.readS_writeS_self r _)
    | double => exact s.readD_writeD_self (dOf r) v
  next h =>
    cases p with
    | single => exact congrArg (BitVec.setWidth 64) (s.readS_writeS_other q r _ h)
    | double =>
      refine s.readD_writeD_other (dOf q) (dOf r) v fun hd => h ?_
      rw [← ofD_dOf hq, ← ofD_dOf hr, hd]

/-- The register of an iteration's result is of the instruction's format. -/
theorem dPrec_of_canVector {c : Cdp} (hv : c.op.canVector = true) : c.dPrec = c.p ∧ c.mPrec = c.p ∧ c.op.writesD = true := by
  obtain ⟨o, p, d, n, m⟩ := c
  cases o
  case add | mul | mac | div | sqrt | copy => exact ⟨rfl, rfl, rfl⟩
  all_goals cases hv

/-- A vector instruction's iteration reads Fn only if its operation does. -/
theorem iterH_congr {o : CdpOp} (hv : o.canVector = true) (p : Prec) (w : Word) {x y : Source} (hd : x.d = y.d)
    (hn : o.readsN = true → x.n = y.n) (hm : x.m = y.m) : iterH o p w x = iterH o p w y := by
  cases o
  case add | mul | mac | div => simp only [iterH, hd, hn rfl, hm]
  case sqrt | copy => simp only [iterH, hm]
  all_goals cases hv

section
variable {s : State} {c : Cdp} {w : Word}

/-- A register after one more iteration of a run. -/
theorem State.vectorRun_succ_readReg (hv : c.op.canVector = true) (hd : c.p.Names c.d) {r : BitVec 5}
    (hr : c.p.Names r) {k : Nat} {v : BitVec 64}
    (he : (iterH c.op c.p w ((s.vectorRun c w 0 k).source (c.at (c.shape w) w k))).2.1 = .reg v) :
    (s.vectorRun c w 0 (k + 1)).readReg c.p r =
      if r = (c.at (c.shape w) w k).d then c.p.held v else (s.vectorRun c w 0 k).readReg c.p r := by
  have hprec : (c.at (c.shape w) w k).dPrec = c.p := (dPrec_of_canVector hv).1
  rw [State.vectorRun_succ, Nat.zero_add, he, State.complete, hprec]
  exact (s.vectorRun c w 0 k).readReg_writeReg (operandAt_names hd (c.shape w).stepsDN w k) hr v

/-- A register that none of the first `k` iterations writes is as it was before them. -/
theorem State.vectorRun_readReg (hv : c.op.canVector = true) (hd : c.p.Names c.d) {r : BitVec 5} (hr : c.p.Names r)
    {k : Nat} (h : ∀ j < k, r ≠ (c.at (c.shape w) w j).d) : (s.vectorRun c w 0 k).readReg c.p r = s.readReg c.p r := by
  induction k with
  | zero => rfl
  | succ k ih =>
    obtain ⟨v, he⟩ := iterH_reg (dPrec_of_canVector hv).2.2 c.p w
      ((s.vectorRun c w 0 k).source (c.at (c.shape w) w k))
    rw [State.vectorRun_succ_readReg hv hd hr he, if_neg (h k (by omega))]
    exact ih fun j hj => h j (by omega)

theorem shape_of_not_stepsDN (hs : (c.shape w).stepsDN = false) : c.shape w = ⟨1, false, false⟩ := by
  unfold Cdp.shape at hs ⊢
  split at hs
  next h => rw [if_pos h]
  next => split at hs <;> cases hs

theorem shape_scalar_iters (hs : (c.shape w).stepsDN = false) : (c.shape w).iters = 1 := by
  rw [shape_of_not_stepsDN hs]

/-- A vector that is not refused neither wraps nor overlaps (40_cdp_common.md R168, R169). -/
theorem vector_of_refusal_none (hr : c.refusal w = none) (hs : (c.shape w).stepsDN = true) :
    (c.shape w).iters * strideOf w ≤ c.p.bankSize ∧
      ¬ c.overlaps (c.shape w) w = true := by
  have hl := legalLenStride_of_refusal_none hr
  simp only [Cdp.refusal, hl, hs, Bool.not_true, Bool.false_eq_true, if_false, Bool.true_and] at hr
  split at hr
  · cases hr
  next hwraps =>
    split at hr
    · cases hr
    next hoverlaps =>
      exact ⟨Nat.not_lt.mp (mt (wraps_iff ..).mpr hwraps), hoverlaps⟩

variable (hr : c.refusal w = none) (hn : c.p.Names c.d ∧ c.p.Names c.n ∧ c.p.Names c.m)
include hr hn

/-- No iteration of a legal vector writes what a later one reads from a stepping operand. -/
theorem stepReg_ne_earlier (hs : (c.shape w).stepsDN = true) {j k : Nat} (hj : j < k) (hk : k < (c.shape w).iters)
    {r : BitVec 5} (h : r = c.d ∨ c.SteppingSource r) :
    stepReg c.p (strideOf w) r k ≠ stepReg c.p (strideOf w) c.d j := by
  obtain ⟨hfit, hoverlaps⟩ := vector_of_refusal_none hr hs
  obtain ⟨-, hiters, -⟩ := shape_of_stepsDN hs
  intro heq
  by_cases hrd : r = c.d
  · subst hrd
    have := stepReg_injective hfit hk (by omega) heq
    omega
  · exact hoverlaps ((overlaps_iff hn hs).mpr
      ⟨r, h.resolve_left hrd, hrd, j, k, by omega, by omega, heq.symm⟩)

/-- No iteration of a legal vector writes a register a later one reads. -/
theorem operand_ne_earlier {j k : Nat} (hj : j < k) (hk : k < (c.shape w).iters) :
    (c.at (c.shape w) w k).d ≠ (c.at (c.shape w) w j).d ∧
      (c.op.readsN = true → (c.at (c.shape w) w k).n ≠ (c.at (c.shape w) w j).d) ∧
      (c.at (c.shape w) w k).m ≠ (c.at (c.shape w) w j).d := by
  cases hs : (c.shape w).stepsDN with
  | false => have := shape_scalar_iters hs; omega
  | true =>
    obtain ⟨hb, -, hm⟩ := shape_of_stepsDN hs
    have hne {r : BitVec 5} := stepReg_ne_earlier hr hn hs hj hk (r := r)
    simp only [Cdp.at, hs, if_true, hm]
    refine ⟨hne (.inl rfl), fun h => hne (.inr (.inl ⟨h, rfl⟩)), ?_⟩
    cases h0 : inBank0 c.p c.m with
    | true =>
      intro heq
      have := congrArg (inBank0 c.p) heq
      simp [h0, hb] at this
    | false => exact hne (.inr (.inr ⟨h0, rfl⟩))

variable (hv : c.op.canVector = true)
include hv

/-- An iteration of a legal vector reads what the registers held before the instruction. -/
theorem iterH_vectorRun {k : Nat} (hk : k < (c.shape w).iters) :
    iterH c.op c.p w ((s.vectorRun c w 0 k).source (c.at (c.shape w) w k)) =
      iterH c.op c.p w (s.source (c.at (c.shape w) w k)) := by
  have hne {j : Nat} (hj : j < k) := operand_ne_earlier hr hn hj hk
  obtain ⟨hd, hn', hm⟩ := hn
  have hread {r : BitVec 5} (hr : c.p.Names r) (h : ∀ j < k, r ≠ (c.at (c.shape w) w j).d) :=
    State.vectorRun_readReg (s := s) hv hd hr h
  have hprec : (c.at (c.shape w) w k).mPrec = c.p := (dPrec_of_canVector hv).2.1
  refine iterH_congr hv c.p w ?_ (fun h => ?_) ?_
  · exact hread (operandAt_names hd _ w k) fun j hj => (hne hj).1
  · exact hread (operandAt_names hn' _ w k) fun j hj => (hne hj).2.1 h
  · simp only [State.source, hprec]
    exact hread (operandAt_names hm _ w k) fun j hj => (hne hj).2.2

/-- Element `k` holds its result from iteration `k` on. -/
theorem State.vectorRun_element {k n : Nat} (hk : k < n) (hiters : n ≤ (c.shape w).iters) {v : BitVec 64}
    (he : (iterH c.op c.p w (s.source (c.at (c.shape w) w k))).2.1 = .reg v) :
    (s.vectorRun c w 0 n).readReg c.p (c.at (c.shape w) w k).d = c.p.held v := by
  have hd := hn.1
  have hnames : c.p.Names (c.at (c.shape w) w k).d := operandAt_names hd (c.shape w).stepsDN w k
  induction n with
  | zero => omega
  | succ n ih =>
    obtain ⟨v', he'⟩ := iterH_reg (dPrec_of_canVector hv).2.2 c.p w
      ((s.vectorRun c w 0 n).source (c.at (c.shape w) w n))
    rw [State.vectorRun_succ_readReg hv hd hnames he']
    rcases Nat.lt_succ_iff_lt_or_eq.mp hk with hlt | rfl
    · rw [if_neg (operand_ne_earlier hr hn hlt (by omega)).1.symm]
      exact ih hlt (by omega)
    · rw [iterH_vectorRun hr hn hv (by omega), he] at he'
      rw [if_pos rfl, Effect.reg.inj he']

end

/-- What completing an iteration keeps holds after a run. -/
theorem State.vectorRun_keeps {Q : State → Prop} (hq : ∀ s c e fl, Q s → Q (State.complete s c e fl)) (c : Cdp)
    (w : Word) (k left : Nat) (s : State) (hs : Q s) : Q (s.vectorRun c w k left) := by
  induction left generalizing s k with
  | zero => exact hs
  | succ rest ih => exact ih _ _ (hq _ _ _ _ hs)

/-- Settles O14: nothing that an iteration reads was written before it, so each answers what it answers of the initial
registers, and its register is not written again. -/
theorem vectorElementsAreIndependent : Obligations.VectorElementsAreIndependent := by
  intro i c s hrun hv sh hclear
  have ⟨hc, _, hr, _⟩ := hrun
  have hn := cdpOf_names hc hv
  have hclear' (j : Nat) (hj : j < sh.iters) :
      (iterH c.op c.p s.fpscr ((s.vectorRun c s.fpscr 0 j).source (c.at sh s.fpscr j))).1.clear = true := by
    rw [iterH_vectorRun hr hn hv hj]
    exact hclear j hj
  have hexec : exec i s = .next (s.vectorRun c s.fpscr 0 sh.iters).advance := by
    rw [exec_runs hrun, State.runCdp, s.runIterations_of_clear (encode i) c s.fpscr sh.iters (Nat.le_refl _) hclear',
      Nat.sub_self]
    rfl
  have hframe := s.vectorRun_frame c (Nat.le_refl sh.iters)
  refine ⟨_, hexec, fun k v hk he => ?_, fun r h => (hframe.regs r h).1, ?_, ?_⟩
  · exact State.vectorRun_element hr hn hv hk (Nat.le_refl _) he
  · exact State.vectorRun_keeps (Q := fun u => u.fpexc = s.fpexc) (fun u c e fl h => by simpa using h) c _ 0 _ s rfl
  · rw [State.advance_pc, hframe.pc]

end Sys2Proof.Machine

/-! Proofs, support code: the instruction that FPINST and FPINST2 hold, and what the support code makes of it
(40_cdp_common.md R205; 60_exceptions.md R415, R426, R432, R443 to R449). -/

namespace Sys2Proof

/-! ### The words of FPINST and FPINST2 (10_state.md R72, R73; 60_exceptions.md R415) -/

section
variable (c : Cond) (pqrs : BitVec 4) (dbl : BitVec 1) (d n m r : BitVec 5)

theorem alwaysWord_cdpWord : alwaysWord (cdpWord c pqrs dbl d n m) = cdpWord .al pqrs dbl d n m := by
  apply BitVec.eq_of_getLsbD_eq
  intro i hi
  interval_cases i <;>
    (simp only [alwaysWord, Cond.code, field, cdpWord, BitVec.getLsbD_append, BitVec.getLsbD_extractLsb']; simp)

theorem setFieldD_cdpWord : setFieldD (cdpWord c pqrs dbl d n m) r = cdpWord c pqrs dbl r n m := by
  apply BitVec.eq_of_getLsbD_eq
  intro i hi
  interval_cases i <;>
    (simp only [setFieldD, field, upper, lowest, cdpWord, BitVec.getLsbD_append, BitVec.getLsbD_extractLsb']; simp)

theorem setFieldN_cdpWord : setFieldN (cdpWord c pqrs dbl d n m) r = cdpWord c pqrs dbl d r m := by
  apply BitVec.eq_of_getLsbD_eq
  intro i hi
  interval_cases i <;>
    (simp only [setFieldN, field, upper, lowest, cdpWord, BitVec.getLsbD_append, BitVec.getLsbD_extractLsb']; simp)

theorem setFieldM_cdpWord : setFieldM (cdpWord c pqrs dbl d n m) r = cdpWord c pqrs dbl d n r := by
  apply BitVec.eq_of_getLsbD_eq
  intro i hi
  interval_cases i <;>
    (simp only [setFieldM, field, upper, lowest, cdpWord, BitVec.getLsbD_append, BitVec.getLsbD_extractLsb']; simp)

end

end Sys2Proof

namespace Sys2Proof.Machine

/-- The word of a CDP instruction with its condition forced to AL holds that instruction. -/
theorem supportInstr_alwaysWord {i : Instr} {c : Cdp} (h : cdpOf i = some c) (hwf : i.WellFormed) (copies : Bool) :
    supportInstr (alwaysWord (encode i)) copies = if c.op.isCopy && !copies then none else some c := by
  cases i
  case fmacs | fmacd | fnmacs | fnmacd | fmscs | fmscd | fnmscs | fnmscd | fmuls | fmuld | fnmuls | fnmuld | fadds |
      faddd | fsubs | fsubd | fdivs | fdivd =>
    cases h
    simp [supportInstr, encode, alwaysWord_cdpWord, decode_cdpWord, decodeCdp, cdpWord_pqrs, cdpWord_fieldD,
      cdpWord_fieldN, cdpWord_fieldM, cdpWord_dbl, cdpOf, Instr.unpredictable, CdpOp.isCopy]
  case fcpys | fcpyd | fabss | fabsd | fnegs | fnegd | fsqrts | fsqrtd | fcmps | fcmpd | fcmpes | fcmped | fcmpzs |
      fcmpzd | fcmpezs | fcmpezd | fcvtds | fcvtsd | fuitos | fuitod | fsitos | fsitod | ftouis | ftouid | ftouizs |
      ftouizd | ftosis | ftosid | ftosizs | ftosizd =>
    cases h
    simp only [Instr.WellFormed, Instr.unpredictable] at hwf
    simp [supportInstr, encode, alwaysWord_cdpWord, decode_extWord, decodeExt, cdpOf, Instr.unpredictable, CdpOp.isCopy,
      hwf]
  all_goals cases h

/-- The word of an exceptional iteration holds the instruction on the registers of that iteration; an operation that
does not read Fn has none. -/
theorem supportInstr_vectorWord {i : Instr} {c : Cdp} (h : cdpOf i = some c) (hv : c.op.canVector = true)
    {d n m : BitVec 5} (hd : c.p.Names d) (hn : c.p.Names n) (hm : c.p.Names m) (iters : Nat) (stepsM copies : Bool) :
    supportInstr (Cdp.exceptionalWord { c with d := d, n := n, m := m } ⟨iters, true, stepsM⟩ (encode i)) copies =
      if c.op.isCopy && !copies then none
      else some { c with d := d, n := if c.op.readsN then n else c.n, m := if stepsM then m else c.m } := by
  cases i
  case fmacs | fnmacs | fmscs | fnmscs | fmuls | fnmuls | fadds | fsubs | fdivs =>
    cases h
    cases stepsM <;>
      simp [Cdp.exceptionalWord, regField, CdpOp.readsN, setFieldD_cdpWord, setFieldN_cdpWord, setFieldM_cdpWord,
        supportInstr, encode, alwaysWord_cdpWord, decode_cdpWord, decodeCdp, cdpWord_pqrs, cdpWord_fieldD,
        cdpWord_fieldN, cdpWord_fieldM, cdpWord_dbl, cdpOf, Instr.unpredictable, CdpOp.isCopy]
  case fmacd | fnmacd | fmscd | fnmscd | fmuld | fnmuld | faddd | fsubd | fdivd =>
    cases h
    cases stepsM <;>
      simp [Cdp.exceptionalWord, regField, CdpOp.readsN, setFieldD_cdpWord, setFieldN_cdpWord, setFieldM_cdpWord,
        supportInstr, encode, alwaysWord_cdpWord, decode_cdpWord, decodeCdp, cdpWord_pqrs, cdpWord_fieldD,
        cdpWord_fieldN, cdpWord_fieldM, cdpWord_dbl, cdpOf, Instr.unpredictable, CdpOp.isCopy, ofD_dOf hd, ofD_dOf hn,
        ofD_dOf hm]
  case fcpys | fabss | fnegs | fsqrts =>
    cases h
    cases stepsM <;>
      simp [Cdp.exceptionalWord, regField, CdpOp.readsN, setFieldD_cdpWord, setFieldM_cdpWord, supportInstr, encode,
        alwaysWord_cdpWord, decode_extWord, decodeExt, cdpOf, Instr.unpredictable, CdpOp.isCopy]
  case fcpyd | fabsd | fnegd | fsqrtd =>
    cases h
    cases stepsM <;>
      simp [Cdp.exceptionalWord, regField, CdpOp.readsN, setFieldD_cdpWord, setFieldM_cdpWord, supportInstr, encode,
        alwaysWord_cdpWord, decode_extWord, decodeExt, cdpOf, Instr.unpredictable, CdpOp.isCopy, ofD_dOf hd,
        ofD_dOf hm]
  all_goals (cases h <;> cases hv)

end Sys2Proof.Machine

namespace Sys2Proof.Machine

/-! ### What an iteration depends on (40_cdp_common.md R205) -/

/-- A control bit of FPSCR that arithmetic keeps. -/
theorem bitAt_congr_of_mask {v w m : Word} (h : v &&& m = w &&& m) {i : Nat} (hm : m.getLsbD i = true) :
    bitAt v i = bitAt w i := by
  have hi := congrArg (fun x => x.getLsbD i) h
  simp only [BitVec.getLsbD_and, hm, Bool.and_true] at hi
  exact hi

section
variable {v w : Word} (h : FlagsKept w v)
include h

theorem FlagsKept.modes :
    Fpscr.dn v = Fpscr.dn w ∧ Fpscr.fz v = Fpscr.fz w ∧ Fpscr.rmode v = Fpscr.rmode w := by
  have hbit {i : Nat} (hm : Fpscr.controlMask.getLsbD i = true) := bitAt_congr_of_mask h.control hm
  refine ⟨hbit (by decide), hbit (by decide), ?_⟩
  rw [Fpscr.rmode, Fpscr.rmode, hbit (i := 23) (by decide), hbit (i := 22) (by decide)]

theorem FlagsKept.enables :
    Fpscr.ide v = Fpscr.ide w ∧ Fpscr.ixe v = Fpscr.ixe w ∧ Fpscr.ufe v = Fpscr.ufe w ∧ Fpscr.ofe v = Fpscr.ofe w ∧
      Fpscr.dze v = Fpscr.dze w ∧ Fpscr.ioe v = Fpscr.ioe w := by
  have hbit {i : Nat} (hm : Fpscr.controlMask.getLsbD i = true) := bitAt_congr_of_mask h.control hm
  exact ⟨hbit (by decide), hbit (by decide), hbit (by decide), hbit (by decide), hbit (by decide), hbit (by decide)⟩

theorem FlagsKept.len_stride : Fpscr.len v = Fpscr.len w ∧ strideOf v = strideOf w := by
  have hlen : Fpscr.len v = Fpscr.len w := congrArg BitVec.toNat (field_congr_of_mask h.control (by decide))
  have hstride : Fpscr.stride v = Fpscr.stride w := field_congr_of_mask h.control (by decide)
  exact ⟨hlen, by rw [strideOf, strideOf, hstride]⟩

theorem flushA_congr (p : Prec) : flushA p v = flushA p w := by
  funext a
  simp only [flushA, h.modes]

theorem flushStepA_congr (p : Prec) : flushStepA p v = flushStepA p w := by
  funext ops go
  simp only [flushStepA, h.modes, h.enables]

theorem invalidStepA_congr : invalidStepA v = invalidStepA w := by
  funext invalid fl go
  simp only [invalidStepA, h.enables]

theorem roundStepA_congr (p : Prec) : roundStepA p v = roundStepA p w := by
  funext fl r inter
  simp only [roundStepA, h.enables]

theorem outcomeStepA_congr (p : Prec) : outcomeStepA p v = outcomeStepA p w := by
  funext fl o post
  simp only [outcomeStepA, invalidStepA_congr h, roundStepA_congr h, h.modes, h.enables]

theorem nanStepA_congr (p q : Prec) : nanStepA p q v = nanStepA p q w := by
  funext ops nan fl go
  simp only [nanStepA, invalidStepA_congr h, h.modes]

theorem supportNan_congr (o : CdpOp) (p q : Prec) : supportNan o p q v = supportNan o p q w := by
  funext key rule
  simp only [supportNan, h.control]

theorem arithA_congr (o : CdpOp) (p : Prec) : arithA o p v = arithA o p w := by
  funext key ops f post
  simp only [arithA, flushStepA_congr h, flushA_congr h, nanStepA_congr h, supportNan_congr h, outcomeStepA_congr h]

theorem sourceCheck_congr (p : Prec) : sourceCheck p v = sourceCheck p w := by
  funext ops
  simp only [sourceCheck, h.modes, h.enables]

theorem flushH_congr (p : Prec) : flushH p v = flushH p w := by
  funext a
  simp only [flushH, h.modes, h.enables]

theorem flushFlag_congr (p : Prec) : flushFlag p v = flushFlag p w := by
  funext ops
  simp only [flushFlag, h.modes, h.enables]

theorem completeH_congr (p : Prec) : completeH p v = completeH p w := by
  funext ops o
  simp only [completeH, h.modes]

theorem potOver_congr (p : Prec) : potOver p v = potOver p w := by
  funext e
  simp only [potOver, h.enables]

theorem potUnderAdd_congr (p : Prec) : potUnderAdd p v = potUnderAdd p w := by
  funext usa e
  simp only [potUnderAdd, h.modes]

theorem potUnderMul_congr : potUnderMul v = potUnderMul w := by
  funext e
  simp only [potUnderMul, h.modes]

theorem macH_congr (p : Prec) : macH p v = macH p w := by
  funext negP negA d n m
  simp only [macH, sourceCheck_congr h, flushH_congr h, flushFlag_congr h, completeH_congr h, potOver_congr h,
    potUnderAdd_congr h, potUnderMul_congr h, h.modes, h.enables]

theorem macA_congr (p : Prec) : macA p v = macA p w := by
  funext negP negA d n m
  simp only [macA, macSumA, macH_congr h, arithA_congr h, flushStepA_congr h, flushA_congr h, h.modes]

theorem roundingOf_congr : roundingOf v = roundingOf w := by
  funext z
  simp only [roundingOf, h.modes]

theorem toIntA_congr (p : Prec) : toIntA p v = toIntA p w := by
  funext signed z m
  have hr := roundingOf_congr h
  have hinv := invalidStepA_congr h
  have hixe : Fpscr.ixe v = Fpscr.ixe w := h.enables.2.1
  simp only [toIntA, flushStepA_congr h, flushA_congr h, hr, hinv, hixe]

/-- An iteration at level A depends on the control bits of FPSCR alone. -/
theorem iterA_congr_control (o : CdpOp) (p : Prec) (x : Source) : iterA o p v x = iterA o p w x := by
  obtain ⟨-, hfz, hrm⟩ := h.modes
  cases o with
  | add | mul | div | sqrt => simp only [iterA, arithA_congr h, hfz, hrm]
  | mac => simp only [iterA, macA_congr h]
  | copy => rfl
  | cmp | cmpz => simp only [iterA, cmpA, invalidStepA_congr h, hfz, h.enables]
  | cvt =>
    simp only [iterA, cvtA, flushStepA_congr h, flushA_congr h, nanStepA_congr h, supportNan_congr h,
      roundStepA_congr h, hfz, hrm]
  | fromInt => simp only [iterA, fromIntA, outcomeStepA_congr h]
  | toInt =>
    simp only [iterA, toIntA_congr h]

end

/-- An iteration at level A reads Fn only if its operation does. -/
theorem iterA_congr_source (o : CdpOp) (p : Prec) (w : Word) {x y : Source} (hd : x.d = y.d)
    (hn : o.readsN = true → x.n = y.n) (hm : x.m = y.m) : iterA o p w x = iterA o p w y := by
  cases o with
  | add | mul | mac | div => simp only [iterA, hd, hn rfl, hm]
  | sqrt | copy | cmp | cmpz | cvt | fromInt | toInt => simp only [iterA, hd, hm]

theorem Check.must_of_inSub {c : Check} (h : c.inSub = true) : c.must = true := by simp [Check.must, h]

/-! ### An enabled Input Subnormal exception (40_cdp_common.md R185, R205 step 1) -/

/-- The iteration calls a user trap. -/
def ArchResult.Traps (r : ArchResult) : Prop := ∃ kind written fl, r = .trap kind written fl

section
variable {p : Prec} {w : Word} {ops : List Fp}

theorem flushStepA_traps (h : (Fpscr.fz w && Fpscr.ide w && anySub p ops) = true) (go : Cumulative → ArchResult) :
    (flushStepA p w ops go).Traps := by
  simp only [Bool.and_eq_true] at h
  exact ⟨_, _, _, by rw [flushStepA, if_pos (by simp [h])]⟩

theorem ArchResult.Traps.addFlags {r : ArchResult} (h : r.Traps) (f : Cumulative) : (r.addFlags f).Traps := by
  obtain ⟨kind, written, fl, rfl⟩ := h
  exact ⟨kind, written, f.or fl, rfl⟩

/-- The iteration traps or delivers a pattern, not the flags of a comparison. -/
def ArchResult.Delivers (r : ArchResult) : Prop := r.Traps ∨ ∃ v fl, r = .done (.reg v) fl

theorem ArchResult.delivers_trap (k : TrapKind) (written : Option (BitVec 64)) (fl : Cumulative) :
    (ArchResult.trap k written fl).Delivers := .inl ⟨k, written, fl, rfl⟩

theorem ArchResult.delivers_done (v : BitVec 64) (fl : Cumulative) : (ArchResult.done (.reg v) fl).Delivers :=
  .inr ⟨v, fl, rfl⟩

theorem flushStepA_delivers {go : Cumulative → ArchResult} (h : ∀ fl, (go fl).Delivers) :
    (flushStepA p w ops go).Delivers := by
  simp only [flushStepA]
  split
  · exact ArchResult.delivers_trap ..
  · exact h _

theorem invalidStepA_delivers {invalid : Bool} {fl : Cumulative} {go : ArchResult} (h : go.Delivers) :
    (invalidStepA w invalid fl go).Delivers := by
  unfold invalidStepA
  split
  · exact ArchResult.delivers_trap ..
  · exact h

theorem roundStepA_delivers (fl : Cumulative) (r : Rounded) (inter : BitVec 64) :
    (roundStepA p w fl r inter).Delivers := by
  unfold roundStepA
  split
  · exact ArchResult.delivers_trap ..
  · split
    · exact ArchResult.delivers_trap ..
    · split
      · exact ArchResult.delivers_trap ..
      · exact ArchResult.delivers_done ..

theorem outcomeStepA_delivers (fl : Cumulative) (o : Outcome) (post : Rounded → Rounded) :
    (outcomeStepA p w fl o post).Delivers := by
  cases o with
  | invalid => exact invalidStepA_delivers (ArchResult.delivers_done ..)
  | divideByZero neg =>
    simp only [outcomeStepA]
    split
    · exact ArchResult.delivers_trap ..
    · exact ArchResult.delivers_done ..
  | special val => exact ArchResult.delivers_done ..
  | value x => exact roundStepA_delivers ..

theorem nanStepA_delivers {q : Prec} {nan : Fp} {fl : Cumulative} {go : ArchResult} (h : go.Delivers) :
    (nanStepA p q w ops nan fl go).Delivers := by
  unfold nanStepA
  split
  · exact invalidStepA_delivers (ArchResult.delivers_done ..)
  · exact h

theorem arithA_delivers (o : CdpOp) (key : List Fp) (f : List Fp → Outcome) (post : Rounded → Rounded) :
    (arithA o p w key ops f post).Delivers :=
  flushStepA_delivers fun _ => nanStepA_delivers (outcomeStepA_delivers ..)

/-- Either stage of a multiply-accumulate traps on the subnormal operands it is the first to read. -/
theorem macA_traps {negP negA : Bool} {d n m : Fp} (h : (Fpscr.fz w && Fpscr.ide w && anySub p [d, n, m]) = true) :
    (macA p w negP negA d n m).Traps := by
  have hmust : (macH p w negP negA d n m).1.must = true := Check.must_of_inSub h
  simp only [macA, hmust, Bool.not_true, Bool.and_false, Bool.false_eq_true, if_false]
  rcases arithA_delivers (p := p) (w := w) (ops := [n, m]) (.mac negP negA) [d, n, m] (binary (mulOutcome p)) id with
    ⟨kind, written, fl, htrap⟩ | ⟨v, fl, hdone⟩
  · rw [htrap]
    exact ⟨kind, written, fl, rfl⟩
  · rw [hdone]
    refine ArchResult.Traps.addFlags (flushStepA_traps ?_ _) fl
    have hnm : ¬ (Fpscr.fz w && Fpscr.ide w && anySub p [n, m]) = true := fun hf => by
      obtain ⟨_, _, _, htrap⟩ := flushStepA_traps (ops := [n, m]) hf _
      rw [arithA, htrap] at hdone
      cases hdone
    simp only [anySub, List.any_cons, List.any_nil, Bool.or_false, Bool.and_eq_true, Bool.or_eq_true] at h hnm ⊢
    tauto

theorem cmpA_traps {e : Bool} {d m : Fp} (h : (cmpH p w e d m).1.inSub = true) : (cmpA p w e d m).Traps := by
  have h' : (Fpscr.fz w && anySub p [d, m] && Config.fcmpFzFlush && Fpscr.ide w) = true := h
  exact ⟨_, _, _, by rw [cmpA, if_pos h']⟩

/-- An iteration that the hardware bounces as an enabled Input Subnormal exception calls a user trap. -/
theorem iterA_traps_of_inSub (o : CdpOp) (x : Source) (h : (iterH o p w x).1.inSub = true) :
    (iterA o p w x).Traps := by
  cases o with
  | copy | fromInt => cases h
  | add | mul | div | sqrt =>
    simp only [iterA, arithA]
    exact flushStepA_traps h _
  | cvt =>
    simp only [iterA, cvtA]
    exact flushStepA_traps h _
  | toInt =>
    simp only [iterA, toIntA]
    exact flushStepA_traps h _
  | cmp | cmpz => exact cmpA_traps h
  | mac => exact macA_traps h

end

end Sys2Proof.Machine

namespace Sys2Proof.Machine

/-! ### Where the iterations of an instruction end (40_cdp_common.md R170) -/

section
variable (s : State) (c : Cdp) (n : Nat)

theorem State.source_draws : State.source { s with draws := n } c = s.source c := rfl

theorem State.complete_with_draws (e : Effect) (fl : Cumulative) :
    State.complete { s with draws := n } c e fl = { s.complete c e fl with draws := n } := by
  cases e with
  | nzcv b => rfl
  | reg v => cases h : c.dPrec <;> simp only [State.complete, State.writeReg, h] <;> rfl

end

/-- The condition of the iteration that comes after `k` completed ones. -/
def State.checkAfter (s : State) (c : Cdp) (w : Word) (k : Nat) : Check :=
  (iterH c.op c.p w ((s.vectorRun c w 0 k).source (c.at (c.shape w) w k))).1

/-- Every iteration completes, or one of them bounces from what those before it left. -/
theorem State.runIterations_cases (s : State) (word : Word) (c : Cdp) (w : Word) (k n : Nat)
    (hk : k ≤ (c.shape w).iters) :
    (∃ n', State.runIterations { s.vectorRun c w 0 k with draws := n } word c (c.shape w) w ((c.shape w).iters - k) =
      { s.vectorRun c w 0 (c.shape w).iters with draws := n' }) ∨
    ∃ j n' fl, j < (c.shape w).iters ∧ (s.checkAfter c w j).clear = false ∧
      State.runIterations { s.vectorRun c w 0 k with draws := n } word c (c.shape w) w ((c.shape w).iters - k) =
        State.bounce { s.vectorRun c w 0 j with draws := n' } word c (c.shape w) w j (s.checkAfter c w j).inSub fl := by
  generalize hleft : (c.shape w).iters - k = left
  induction left generalizing k n with
  | zero =>
    obtain rfl : k = (c.shape w).iters := by omega
    exact .inl ⟨n, rfl⟩
  | succ rest ih =>
    have hindex : (c.shape w).iters - (rest + 1) = k := by omega
    obtain ⟨n', hn'⟩ := State.decideBounce_snd { s.vectorRun c w 0 k with draws := n } (s.checkAfter c w k)
    rw [State.runIterations]
    simp only [hindex, State.source_draws]
    cases hdecide : (State.decideBounce { s.vectorRun c w 0 k with draws := n } (s.checkAfter c w k)).1 with
    | some fl =>
      refine .inr ⟨k, n', fl, by omega, ?_, ?_⟩
      · rw [← Bool.not_eq_true]
        intro hclear
        rw [State.decideBounce_clear _ hclear] at hdecide
        cases hdecide
      · unfold State.checkAfter at hdecide hn'
        simp only [hdecide, hn']
        rfl
    | none =>
      unfold State.checkAfter at hdecide hn'
      simp only [hdecide, hn', State.complete_with_draws]
      have hnext := ih (k + 1) n' (by omega) (by omega)
      rw [State.vectorRun_succ, Nat.zero_add] at hnext
      exact hnext

theorem shape_iters_le (c : Cdp) (w : Word) : (c.shape w).iters ≤ 8 := by
  have hlen : Fpscr.len w < 8 := (field w 16 3).isLt
  unfold Cdp.shape
  split
  · simp
  · split <;> exact hlen

/-- A CDP instruction completes, or bounces at an iteration with a condition. -/
theorem State.runCdp_cases (s : State) (word : Word) (c : Cdp) :
    (∃ n, s.runCdp word c = State.advance { s.vectorRun c s.fpscr 0 (c.shape s.fpscr).iters with draws := n }) ∨
    ∃ k n fl, k < (c.shape s.fpscr).iters ∧ (s.checkAfter c s.fpscr k).clear = false ∧
      s.runCdp word c = (State.bounce { s.vectorRun c s.fpscr 0 k with draws := n } word c (c.shape s.fpscr) s.fpscr k
        (s.checkAfter c s.fpscr k).inSub fl).advance := by
  obtain ⟨n, hdone⟩ | ⟨k, n, fl, hk, hclear, hbounce⟩ :=
    s.runIterations_cases word c s.fpscr 0 s.draws (Nat.zero_le _)
  · exact .inl ⟨n, congrArg State.advance hdone⟩
  · exact .inr ⟨k, n, fl, hk, hclear, congrArg State.advance hbounce⟩

/-- An instruction that leaves EX set bounced at an iteration with a condition, and VECITR tells which
(10_state.md R68). -/
theorem exec_bounced {i : Instr} {c : Cdp} {s t : State} (hrun : s.Runs i c) (h : exec i s = .next t)
    (hex : Fpexc.ex t.fpexc = true) :
    ∃ k n fl, k < (c.shape s.fpscr).iters ∧ (s.checkAfter c s.fpscr k).clear = false ∧
      (c.shape s.fpscr).iters - 1 - Fpexc.remaining t.fpexc = k ∧
      t = (State.bounce { s.vectorRun c s.fpscr 0 k with draws := n } (encode i) c (c.shape s.fpscr) s.fpscr k
        (s.checkAfter c s.fpscr k).inSub fl).advance := by
  have ⟨_, _, _, _, _, hexceptional⟩ := hrun
  obtain rfl : s.runCdp (encode i) c = t := Host.Outcome.next.inj ((exec_runs hrun).symm.trans h)
  obtain ⟨n, hdone⟩ | ⟨k, n, fl, hk, hclear, hbounce⟩ := s.runCdp_cases (encode i) c
  · have hkept : (s.vectorRun c s.fpscr 0 (c.shape s.fpscr).iters).fpexc = s.fpexc :=
      State.vectorRun_keeps (Q := fun u => u.fpexc = s.fpexc) (fun _ _ _ _ hq => by simpa using hq) c _ 0 _ s rfl
    rw [hdone, State.advance_fpexc] at hex
    exact absurd hex (by simp [hkept, (not_exceptional hexceptional).1])
  · have hremaining := (vecitrCountsRemaining.2 { s.vectorRun c s.fpscr 0 k with draws := n } (encode i) c
      (c.shape s.fpscr) s.fpscr k (s.checkAfter c s.fpscr k).inSub fl (shape_iters_le ..) hk).2
    refine ⟨k, n, fl, hk, hclear, ?_, hbounce⟩
    rw [hbounce, State.advance_fpexc, hremaining]
    omega

end Sys2Proof.Machine

namespace Sys2Proof.Machine

/-! ### The instruction that FPINST holds (60_exceptions.md R415, R443) -/

/-- Two instructions do the same on the same registers; Fn counts where the operation reads it. -/
structure Cdp.Agrees (b c : Cdp) : Prop where
  op : b.op = c.op
  p : b.p = c.p
  d : b.d = c.d
  n : c.op.readsN = true → b.n = c.n
  m : b.m = c.m

theorem Cdp.Agrees.refl (c : Cdp) : c.Agrees c := ⟨rfl, rfl, rfl, fun _ => rfl, rfl⟩

section
variable {c : Cdp} {w : Word}

theorem canVector_of_stepsDN (hs : (c.shape w).stepsDN = true) : c.op.canVector = true := by
  cases hv : c.op.canVector with
  | true => rfl
  | false => simp [Cdp.shape, hv] at hs

/-- The exceptional iteration `k` of a vector as an instruction of its own. -/
def Cdp.startingAt (c : Cdp) (w : Word) (k : Nat) : Cdp :=
  { c with
    d := stepReg c.p (strideOf w) c.d k
    n := if c.op.readsN then stepReg c.p (strideOf w) c.n k else c.n
    m := operandAt c.p (c.shape w).stepsM w c.m k }

/-- The shape depends on the operation and on the banks of Fd and Fm alone (40_cdp_common.md R161). -/
theorem shape_congr {b : Cdp} (hop : b.op = c.op) (hd : inBank0 b.p b.d = inBank0 c.p c.d)
    (hm : inBank0 b.p b.m = inBank0 c.p c.m) : b.shape w = c.shape w := by
  simp only [Cdp.shape, hop, hd, hm]

theorem shape_startingAt (k : Nat) : (c.startingAt w k).shape w = c.shape w := by
  refine shape_congr rfl inBank0_stepReg ?_
  simp only [Cdp.startingAt, operandAt]
  split
  · exact inBank0_stepReg
  · rfl

/-- Its iterations are those of the vector from `k` on. -/
theorem startingAt_agrees (hs : (c.shape w).stepsDN = true) (k j : Nat) :
    ((c.startingAt w k).at (c.shape w) w j).Agrees (c.at (c.shape w) w (k + j)) where
  op := rfl
  p := rfl
  d := by simp only [Cdp.at, Cdp.startingAt, hs, if_true, stepReg_stepReg]
  n hn := by
    have hn' : c.op.readsN = true := hn
    simp only [Cdp.at, Cdp.startingAt, hs, hn', if_true, stepReg_stepReg]
  m := by
    simp only [Cdp.at, Cdp.startingAt, operandAt]
    split
    · exact stepReg_stepReg j
    · rfl

/-- FPINST holds an instruction of the same shape whose iterations are those of the bounced one from `k` on. -/
theorem supportInstr_exceptionalWord {i : Instr} (h : cdpOf i = some c) (hwf : i.WellFormed) (k : Nat)
    {copies : Bool} (hcopy : c.op.isCopy = true → copies = true) :
    ∃ b, supportInstr ((c.at (c.shape w) w k).exceptionalWord (c.shape w) (encode i)) copies = some b ∧
      b.shape w = c.shape w ∧ ∀ j, (b.at (c.shape w) w j).Agrees (c.at (c.shape w) w (k + j)) := by
  have hcopies : (c.op.isCopy && !copies) = false := by
    cases hc : c.op.isCopy with
    | false => rfl
    | true => simp [hcopy hc]
  cases hs : (c.shape w).stepsDN with
  | false =>
    have hword : (c.at (c.shape w) w k).exceptionalWord (c.shape w) (encode i) = alwaysWord (encode i) := by
      rw [shape_of_not_stepsDN hs]
      rfl
    refine ⟨c, by rw [hword, supportInstr_alwaysWord h hwf, hcopies]; rfl, rfl, fun j => ?_⟩
    rw [shape_of_not_stepsDN hs]
    exact .refl c
  | true =>
    have hv := canVector_of_stepsDN hs
    obtain ⟨hd, hn, hm⟩ := cdpOf_names h hv
    have hword := supportInstr_vectorWord h hv (stepReg_names (st := strideOf w) (k := k) hd)
      (stepReg_names (st := strideOf w) (k := k) hn) (operandAt_names hm (c.shape w).stepsM w k) (c.shape w).iters
      (c.shape w).stepsM copies
    have hshape : (⟨(c.shape w).iters, true, (c.shape w).stepsM⟩ : Shape) = c.shape w := by rw [← hs]
    have hat : c.at (c.shape w) w k = { c with
        d := stepReg c.p (strideOf w) c.d k
        n := stepReg c.p (strideOf w) c.n k
        m := operandAt c.p (c.shape w).stepsM w c.m k } := by
      simp only [Cdp.at, hs, if_true, operandAt]
    refine ⟨c.startingAt w k, ?_, shape_startingAt k, startingAt_agrees hs k⟩
    rw [hat, ← hshape, hword, hcopies, Cdp.startingAt]
    cases (c.shape w).stepsM <;> rfl

end

end Sys2Proof.Machine

namespace Sys2Proof.Machine

/-! ### Support code mirrors the iterations of level A (60_exceptions.md R443) -/

/-- `u`, which support code works on, has the registers of `v` and its FPSCR but for the flags of `m`; the control bits
are those of FPSCR `w`, and what support code does not touch is that of `a`. -/
structure Mirrors (w m : Word) (a u v : State) : Prop where
  sreg : u.sreg = v.sreg
  fpscr : u.fpscr ||| m = v.fpscr ||| m
  flags : FlagsKept w u.fpscr
  fpexc : u.fpexc = a.fpexc
  arm : u.arm = a.arm
  mem : u.mem = a.mem
  r14Und : u.r14Und = a.r14Und
  spsrUnd : u.spsrUnd = a.spsrUnd

/-- Two results that mirror each other: next states, or the same user trap. -/
inductive MirrorsResult (w m : Word) (a : State) : Result → Result → Prop
  | next {u v : State} (h : Mirrors w m a u v) : MirrorsResult w m a (.next u) (.next v)
  | trap {kind : TrapKind} {u v : State} (h : Mirrors w m a u v) :
      MirrorsResult w m a (.fault (.userTrap kind u)) (.fault (.userTrap kind v))

theorem MirrorsResult.thenDo {w m : Word} {a : State} {r q : Result} {f g : State → Result}
    (h : MirrorsResult w m a r q) (hfg : ∀ u v, Mirrors w m a u v → MirrorsResult w m a (f u) (g v)) :
    MirrorsResult w m a (thenDo r f) (thenDo q g) := by
  cases h with
  | next h => exact hfg _ _ h
  | trap h => exact .trap h

theorem setNzcv_or_congr {m x y : Word} (h : x ||| m = y ||| m) (b : BitVec 4) :
    Fpscr.setNzcv x b ||| m = Fpscr.setNzcv y b ||| m := by
  apply BitVec.eq_of_getLsbD_eq
  intro i hi
  have hbit := congrArg (fun z => z.getLsbD i) h
  simp only [BitVec.getLsbD_or, Fpscr.getLsbD_setNzcv] at hbit ⊢
  split
  · exact hbit
  · rfl

theorem raise_or_congr {m x y : Word} (h : x ||| m = y ||| m) (f : Cumulative) :
    Fpscr.raise x f ||| m = Fpscr.raise y f ||| m := by
  rw [Fpscr.raise, Fpscr.raise, BitVec.or_assoc, BitVec.or_assoc, BitVec.or_comm f.word, ← BitVec.or_assoc,
    ← BitVec.or_assoc, h]

section
variable {w m : Word} {a u v : State}

theorem Mirrors.raise (h : Mirrors w m a u v) (f : Cumulative) : Mirrors w m a (u.raise f) (v.raise f) :=
  { h with fpscr := raise_or_congr h.fpscr f, flags := h.flags.raise f }

theorem Mirrors.setNzcv (h : Mirrors w m a u v) (b : BitVec 4) :
    Mirrors w m a (u.setFpscr (Fpscr.setNzcv u.fpscr b)) (v.setFpscr (Fpscr.setNzcv v.fpscr b)) :=
  { h with fpscr := setNzcv_or_congr h.fpscr b, flags := h.flags.setNzcv b }

theorem Mirrors.writeReg (h : Mirrors w m a u v) (p : Prec) (r : BitVec 5) (x : BitVec 64) :
    Mirrors w m a (u.writeReg p r x) (v.writeReg p r x) := by
  cases p <;> exact { h with sreg := by simp [State.writeReg, State.writeD, State.writeS, h.sreg] }

/-- An iteration of the same operation answers the same. -/
theorem Mirrors.iterA_eq (h : Mirrors w m a u v) {b c : Cdp} (hb : b.Agrees c) :
    iterA b.op b.p w (u.source b) = iterA c.op c.p w (v.source c) := by
  have hread (p : Prec) (r : BitVec 5) : u.readReg p r = v.readReg p r := by
    cases p <;> simp only [State.readReg, State.readD, State.readS, h.sreg]
  have hprec : b.mPrec = c.mPrec := by rw [Cdp.mPrec, Cdp.mPrec, hb.op, hb.p]
  rw [hb.op, hb.p]
  refine iterA_congr_source c.op c.p w ?_ (fun hn => ?_) ?_
  · simp only [State.source, hread, hb.p, hb.d]
  · simp only [State.source, hread, hb.p, hb.n hn]
  · simp only [State.source, hread, hprec, hb.m]

theorem Cdp.Agrees.dPrec {b c : Cdp} (hb : b.Agrees c) : b.dPrec = c.dPrec := by
  rw [Cdp.dPrec, Cdp.dPrec, hb.op, hb.p]

theorem Mirrors.complete (h : Mirrors w m a u v) {b c : Cdp} (hb : b.Agrees c) (e : Effect) (fl : Cumulative) :
    Mirrors w m a (u.complete b e fl) (v.complete c e fl) := by
  cases e with
  | reg x =>
    rw [State.complete, State.complete, hb.dPrec, hb.d]
    exact (h.writeReg _ _ x).raise fl
  | nzcv x => exact (h.setNzcv x).raise fl

theorem Mirrors.atTrap (h : Mirrors w m a u v) {b c : Cdp} (hb : b.Agrees c) (written : Option (BitVec 64))
    (fl : Cumulative) : Mirrors w m a (u.atTrap b written fl) (v.atTrap c written fl) := by
  cases written with
  | some x => exact h.complete hb (.reg x) fl
  | none => exact h.raise fl

/-- Iterations on the same registers of mirroring states end in mirroring states. -/
theorem Mirrors.archIterations {b c : Cdp} {sh : Shape} (j k left : Nat)
    (hb : ∀ i, (b.at sh w (j + i)).Agrees (c.at sh w (k + i))) (h : Mirrors w m a u v) :
    MirrorsResult w m a (u.archIterations b sh w j left) (v.archIterations c sh w k left) := by
  induction left generalizing u v j k with
  | zero => exact .next h
  | succ rest ih =>
    have hiter : iterA b.op b.p w (u.source (b.at sh w j)) = iterA c.op c.p w (v.source (c.at sh w k)) :=
      h.iterA_eq (hb 0)
    rw [State.archIterations, State.archIterations, hiter]
    cases iterA c.op c.p w (v.source (c.at sh w k)) with
    | done e fl =>
      refine ih (j + 1) (k + 1) (fun i => ?_) (h.complete (hb 0) e fl)
      rw [Nat.add_right_comm j, Nat.add_right_comm k]
      exact hb (i + 1)
    | trap kind written fl => exact .trap (h.atTrap (hb 0) written fl)

end

/-- The iterations of level A depend on the control bits of FPSCR alone. -/
theorem archIterations_congr {w w' : Word} (h : FlagsKept w w') (s : State) (c : Cdp) (k left : Nat) :
    s.archIterations c (c.shape w') w' k left = s.archIterations c (c.shape w) w k left := by
  obtain ⟨hlen, hstride⟩ := h.len_stride
  have hshape : c.shape w' = c.shape w := by simp only [Cdp.shape, hlen]
  have hat (j : Nat) : c.at (c.shape w) w' j = c.at (c.shape w) w j := by simp only [Cdp.at, hstride]
  rw [hshape]
  induction left generalizing s k with
  | zero => rfl
  | succ rest ih => simp only [State.archIterations, hat, iterA_congr_control h, ih]

end Sys2Proof.Machine

namespace Sys2Proof.Machine

/-! ### The support code after a bounce and after a capture (60_exceptions.md R441, R443, R449) -/

/-- The state in which the support code completes iterations: after the entry, with the exceptional state left. -/
def State.supportEntry (s : State) : State := s.takeUndefined.setFpexc (Fpexc.clearState s.fpexc)

theorem thenDo_assoc (r : Result) (f g : State → Result) :
    thenDo (thenDo r f) g = thenDo r (fun u => thenDo (f u) g) := by
  cases r <;> rfl

theorem State.supportCode_of_bounce {s : State} (h : Fpexc.fp2v s.fpexc = false) :
    s.supportCode = thenDo (s.supportEntry.completeExceptional s.fpinst (Fpexc.remaining s.fpexc))
      (fun u => .next u.returnFromUndefined) := by
  simp only [State.supportCode, h, Bool.false_eq_true, if_false]
  rfl

theorem State.supportCode_of_capture {s : State} (h : Fpexc.fp2v s.fpexc = true) (hd : s.fpinst2Defined = true) :
    s.supportCode = thenDo (thenDo (s.supportEntry.completeExceptional s.fpinst (Fpexc.remaining s.fpexc))
      (fun u => u.completeCaptured s.fpinst2)) (fun u => .next u.returnFromUndefined) := by
  rw [thenDo_assoc]
  simp only [State.supportCode, State.readSys, h, hd, if_true]
  rfl

/-- What the support code completes is what it gives; flags may differ where a user trap is called. -/
theorem supportGives_of_mirrors {t : State} {r q : Result} {w m : Word}
    (ht : t.supportCode = thenDo r (fun u => .next u.returnFromUndefined)) (h : MirrorsResult w m t.supportEntry r q)
    (hm : m = 0#32 ∨ m = 0x00000080#32 ∧ ∃ e, q = .fault e) : t.SupportGives q := by
  cases h with
  | next h =>
    obtain rfl | ⟨-, _, hq⟩ := hm
    · exact ⟨_, ht, h.sreg, by simpa using h.fpscr⟩
    · cases hq
  | trap h =>
    refine ⟨_, ht, h.sreg, ?_, h.fpexc, h.arm, h.mem, h.r14Und, h.spsrUnd⟩
    obtain rfl | ⟨rfl, -⟩ := hm
    · have hfpscr := h.fpscr
      rw [BitVec.or_zero, BitVec.or_zero] at hfpscr
      rw [hfpscr]
    · exact h.fpscr

/-- `t` holds the iterations of `c` from `k` on: its registers and FPSCR (but for the flags of `m`) are those that the
iterations before `k` left in `s`, FPINST is the exceptional iteration, and VECITR counts the others. -/
structure Pending (s : State) (word : Word) (c : Cdp) (k : Nat) (m : Word) (t : State) : Prop where
  sreg : t.sreg = (s.vectorRun c s.fpscr 0 k).sreg
  fpscr : t.fpscr ||| m = (s.vectorRun c s.fpscr 0 k).fpscr ||| m
  flags : FlagsKept s.fpscr t.fpscr
  fpinst : t.fpinst = (c.at (c.shape s.fpscr) s.fpscr k).exceptionalWord (c.shape s.fpscr) word
  remaining : Fpexc.remaining t.fpexc + 1 = (c.shape s.fpscr).iters - k

section
variable {s t : State} {i : Instr} {c : Cdp} {k : Nat} {m : Word}

/-- Completing FPINST gives the level A iterations from the exceptional one on. -/
theorem Pending.completeExceptional (hp : Pending s (encode i) c k m t) (h : cdpOf i = some c) (hwf : i.WellFormed)
    (hcopy : c.op.isCopy = true → Config.ixeBouncesCopy = true) :
    MirrorsResult s.fpscr m t.supportEntry (t.supportEntry.completeExceptional t.fpinst (Fpexc.remaining t.fpexc))
      (s.archFrom c s.fpscr k) := by
  obtain ⟨b, hb, hshape, hagrees⟩ := supportInstr_exceptionalWord (w := s.fpscr) h hwf k hcopy
  have hflags : FlagsKept s.fpscr t.supportEntry.fpscr := hp.flags
  simp only [State.completeExceptional, hp.fpinst, hb, archIterations_congr hflags, hshape, hp.remaining]
  exact Mirrors.archIterations 0 k _ (fun j => by simpa using hagrees j)
    ⟨hp.sreg, hp.fpscr, hflags, rfl, rfl, rfl, rfl, rfl⟩

/-- Completing FPINST2 gives all the level A iterations of the captured instruction. -/
theorem Mirrors.completeCaptured {w : Word} {a u v : State} (hu : Mirrors w m a u v) (h : cdpOf i = some c)
    (hwf : i.WellFormed) (hr : c.refusal w = none) :
    MirrorsResult w m a (u.completeCaptured (alwaysWord (encode i))) (v.archFrom c w 0) := by
  have hinstr : supportInstr (alwaysWord (encode i)) true = some c := by simp [supportInstr_alwaysWord h hwf]
  have hshape : c.shape u.fpscr = c.shape w := by simp only [Cdp.shape, hu.flags.len_stride]
  have hrefusal : c.refusal u.fpscr = none := (refusal_congr hu.flags c).trans hr
  simp only [State.completeCaptured, hinstr, hrefusal]
  rw [archIterations_congr hu.flags, hshape]
  exact Mirrors.archIterations 0 0 _ (fun _ => .refl _) hu

/-- An iteration that bounced as an Input Subnormal exception calls a user trap at level A. -/
theorem archFrom_fault {w : Word} (hk : k < (c.shape w).iters) (h : (s.checkAfter c w k).inSub = true) :
    ∃ e, s.archFrom c w k = .fault e := by
  obtain ⟨kind, written, fl, htrap⟩ := iterA_traps_of_inSub c.op _ h
  rw [State.archFrom, show (c.shape w).iters - k = (c.shape w).iters - k - 1 + 1 by omega, State.archIterations]
  simp only [htrap]
  exact ⟨_, rfl⟩

/-- A copy has no condition but that of IXE_BOUNCES_COPY (40_cdp_common.md R192). -/
theorem ixeBouncesCopy_of_not_clear {o : CdpOp} (ho : o.isCopy = true) {p : Prec} {w : Word} {x : Source}
    (h : (iterH o p w x).1.clear = false) : Config.ixeBouncesCopy = true := by
  cases o with
  | copy kind =>
    by_contra hno
    simp [iterH, copyH, Check.clear, Check.must, hno] at h
  | _ => cases ho

/-- In the exceptional state only a capture sets FP2V. -/
theorem captured_of_fp2v {t' : State} (h : cdpOf i = some c) (ha : t.Admits i) (hex : Fpexc.ex t.fpexc = true)
    (hfp2v : Fpexc.fp2v t.fpexc = false) (hexec : exec i t = .next t') (hfp2v' : Fpexc.fp2v t'.fpexc = true) :
    c.refusal t.fpscr = none ∧ t' = t.draw.2.capture (encode i) := by
  rw [exec_admitted h ha] at hexec
  obtain ⟨hnormal, -⟩ | ⟨-, u, hu, htrigger⟩ | ⟨-, -, hr, hcapture⟩ := issueCdp_next hexec
  · rw [exceptional_of_ex hex] at hnormal
    cases hnormal
  · exfalso
    have hu : Fpexc.fp2v u.fpexc = false := by rcases hu with rfl | rfl <;> exact hfp2v
    obtain ⟨-, rfl⟩ | ⟨-, v, hv, hgo⟩ := trigger_next htrigger
    · exact absurd hfp2v' (by simp [hu])
    · obtain ⟨-, rfl⟩ := startCdp_next hgo
      obtain ⟨x, hx, rfl⟩ := State.supportCode_keeps (Q := fun x => Fpexc.fp2v x.fpexc = false)
        (fun _ _ _ _ hq => by simpa using hq) u v
        (fun x _ => by simp [Fpexc.fp2v, Fpexc.clearState, bitAt]) hv
      rw [State.runCdp_fp2v] at hfp2v'
      exact absurd (hx.symm.trans hfp2v') Bool.false_ne_true
  · exact ⟨hr, hcapture⟩

end

end Sys2Proof.Machine

namespace Sys2Proof.Machine

/-- The flags a bounce leaves free: IDC if it is an enabled Input Subnormal exception (40_cdp_common.md R185). -/
def idcMask (inSub : Bool) : Word := if inSub then 0x00000080#32 else 0#32

theorem raise_drawn_idc (w : Word) (s : State) (inSub : Bool) :
    Fpscr.raise w { idc := (s.drawIf inSub).1 } ||| idcMask inSub = w ||| idcMask inSub := by
  cases inSub with
  | false => rw [State.drawIf_false, Fpscr.raise_none]
  | true =>
    have hword : Cumulative.word { idc := (s.drawIf true).1 } ||| 0x00000080#32 = 0x00000080#32 := by
      cases (s.drawIf true).1 <;> rfl
    rw [Fpscr.raise, idcMask, if_pos rfl, BitVec.or_assoc, hword]

theorem Fpexc.setFp2v_remaining (w : Word) : Fpexc.remaining (Fpexc.setFp2v w) = Fpexc.remaining w := by
  have hvecitr : Fpexc.vecitr (Fpexc.setFp2v w) = Fpexc.vecitr w := by
    rw [Fpexc.vecitr, Fpexc.setFp2v, field, BitVec.extractLsb'_or]
    exact BitVec.or_zero
  rw [Fpexc.remaining, Fpexc.remaining, hvecitr]

section
variable {s : State} {word : Word} {c : Cdp} {k : Nat}

theorem pending_of_bounce (n : Nat) (inSub : Bool) (fl : BounceFlags) (hk : k < (c.shape s.fpscr).iters) :
    Pending s word c k (idcMask inSub) (State.bounce { s.vectorRun c s.fpscr 0 k with draws := n } word c
      (c.shape s.fpscr) s.fpscr k inSub fl).advance where
  sreg := by simp
  fpscr := by
    rw [State.advance_fpscr, State.bounce_fpscr]
    exact raise_drawn_idc ..
  flags := by
    rw [State.advance_fpscr, State.bounce_fpscr]
    exact (s.vectorRun_frame c (Nat.le_of_lt hk)).flags.raise _
  fpinst := by simp
  remaining := by
    rw [State.advance_fpexc, (vecitrCountsRemaining.2 { s.vectorRun c s.fpscr 0 k with draws := n } word c
      (c.shape s.fpscr) s.fpscr k inSub fl (shape_iters_le ..) hk).2]
    omega

theorem Pending.capture {m : Word} {t : State} (h : Pending s word c k m t) (word' : Word) :
    Pending s word c k m (t.draw.2.capture word') :=
  { h with remaining := (congrArg (· + 1) (Fpexc.setFp2v_remaining t.fpexc)).trans h.remaining }

end

/-- Settles O58: FPINST and VECITR hold the iterations from the bounced one on and FPINST2 those of a captured
instruction, so the support code goes through the same iterations as level A; IDC, which an enabled Input Subnormal
exception leaves free, is seen only where that iteration calls its user trap. -/
theorem bouncedInstructionIsCompletedBySupportCode : Obligations.BouncedInstructionIsCompletedBySupportCode := by
  intro s t i c hrun hfp2v hexec hex k
  have ⟨hc, hwf, _⟩ := hrun
  obtain ⟨j, n, fl, hj, hclear, hk, ht⟩ := exec_bounced hrun hexec hex
  obtain rfl : k = j := hk
  have hcopy : c.op.isCopy = true → Config.ixeBouncesCopy = true := fun ho => ixeBouncesCopy_of_not_clear ho hclear
  have hpending : Pending s (encode i) c k (idcMask (s.checkAfter c s.fpscr k).inSub) t :=
    ht ▸ pending_of_bounce n _ fl hj
  have htfp2v : Fpexc.fp2v t.fpexc = false := by
    have hframe := (s.vectorRun_frame c (Nat.le_of_lt hj)).fp2v
    rw [ht, State.advance_fpexc, State.bounce_fpexc, Fpexc.bounce_fp2v]
    exact hframe.trans hfp2v
  have hmask : idcMask (s.checkAfter c s.fpscr k).inSub = 0#32 ∨
      idcMask (s.checkAfter c s.fpscr k).inSub = 0x00000080#32 ∧ ∃ e, s.archFrom c s.fpscr k = .fault e := by
    cases hsub : (s.checkAfter c s.fpscr k).inSub with
    | false => exact .inl rfl
    | true => exact .inr ⟨rfl, archFrom_fault hj hsub⟩
  refine ⟨supportGives_of_mirrors (State.supportCode_of_bounce htfp2v)
    (hpending.completeExceptional hc hwf hcopy) hmask, fun t' i' c' hc' ha' hexec' hfp2v' => ?_⟩
  obtain ⟨hr', rfl⟩ := captured_of_fp2v hc' ha' hex htfp2v hexec' hfp2v'
  have ⟨_, _, hwf'⟩ := ha'
  have hr : c'.refusal s.fpscr = none := (refusal_congr hpending.flags c').symm.trans hr'
  refine supportGives_of_mirrors (State.supportCode_of_capture hfp2v' rfl)
    (((hpending.capture _).completeExceptional hc hwf hcopy).thenDo fun u v huv =>
      huv.completeCaptured hc' hwf' hr) ?_
  exact hmask.imp_right fun ⟨hm, e, he⟩ => ⟨hm, e, by rw [he]; rfl⟩

end Sys2Proof.Machine

/-! Proofs, memory frame: no update but that of a store changes memory (44_ls_memory.md R316, R317, R327 to R329). -/

namespace Sys2Proof.Machine

/-- From `s` to `t` no byte of memory changes, nor the record of the words stored. -/
def MemoryKept (s t : State) : Prop := t.mem = s.mem ∧ t.stored = s.stored

theorem MemoryKept.refl (s : State) : MemoryKept s s := ⟨rfl, rfl⟩

section
variable {s t : State}

theorem MemoryKept.complete (h : MemoryKept s t) (c : Cdp) (e : Effect) (fl : Cumulative) :
    MemoryKept s (t.complete c e fl) := by
  simpa [MemoryKept] using h

/-- FMXR writes a system register, and none of them is in memory. -/
theorem MemoryKept.writeSys {u : State} (h : MemoryKept s t) {r : SysReg} {v : Word} (ht : t.writeSys r v = some u) :
    MemoryKept s u := by
  rcases writeSys_some ht with rfl | ⟨-, rfl⟩ | ⟨-, rfl⟩ | ⟨-, rfl⟩ | ⟨-, rfl⟩ <;> exact h

/-- The entry, the iterations the support code completes and the return leave memory alone (60_exceptions.md R449). -/
theorem MemoryKept.supportCode {u : State} (h : MemoryKept s t) (ht : t.supportCode = .next u) : MemoryKept s u := by
  obtain ⟨w, hw, rfl⟩ := State.supportCode_keeps (Q := MemoryKept s) (fun _ c e fl hq => hq.complete c e fl) t u
    (fun v hv => by rcases hv with rfl | rfl <;> exact h) ht
  exact hw

end

/-- Every primitive update but the write of a word, which only a store makes, keeps memory. -/
theorem memoryKept_keeps {i : Instr} (hi : isStore i = false) (s : State) : Keeps i (MemoryKept s) where
  advance _ h := h
  undefined _ h := h
  draw _ h := h
  drawWord _ h := h
  closeWin _ h := h
  support _ _ h ht := h.supportCode ht
  writeS _ _ _ h := h
  writeArm _ _ _ h := by simpa [MemoryKept] using h
  raise _ _ h := h
  nzcv _ _ h := h
  cpsr _ _ h := h
  writeWord hstore _ _ _ _ := absurd hstore (by simp [hi])
  writeSys _ _ _ _ _ _ _ _ _ _ h ht := h.writeSys ht
  bounce _ _ _ _ _ _ _ _ h := by simpa [MemoryKept] using h
  capture _ _ _ h := h

/-- Settles O55: the write of a word is the only update that changes memory, and only a store makes it. -/
theorem onlyStoresChangeMemory : Obligations.OnlyStoresChangeMemory :=
  fun s t i ht hi => exec_keeps i (memoryKept_keeps hi s) s t (.refl s) ht

end Sys2Proof.Machine

/-! Proofs, register transfers: what the moves to and from the coprocessor leave, FMSTAT, and what any instruction leaves
of CPSR and the program counter (45_ls_register_transfer.md R343 to R359; 60_exceptions.md R436, R450). -/

namespace Sys2Proof.Machine

/-! ### Well-formed moves (45_ls_register_transfer.md R342, R353 to R356) -/

/-- A well-formed move to the core writes no ARM register twice, and not R15. -/
theorem movedOut_wellFormed {i : Instr} {ws : List (ArmReg × BitVec 5)} (h : movedOut i = some ws)
    (hi : i.WellFormed) : (ws.map (·.1)).Nodup ∧ ∀ w ∈ ws, w.1 ≠ 15#4 := by
  simp only [Instr.WellFormed, Instr.unpredictable] at hi
  cases i
  case fmrs | fmrdl | fmrdh =>
    obtain rfl := Option.some.inj h
    obtain ⟨-, hrd⟩ := Option.or_eq_none_iff.mp hi
    simpa [armCheck] using hrd
  case fmrrd =>
    obtain rfl := Option.some.inj h
    simp only [Option.or_eq_none_iff] at hi
    obtain ⟨⟨hrd, hrn⟩, hne⟩ := hi
    simpa [armCheck, distinctCheck] using And.intro hne (And.intro hrd hrn)
  case fmrrs =>
    obtain rfl := Option.some.inj h
    simp only [Option.or_eq_none_iff] at hi
    obtain ⟨⟨⟨-, hrd⟩, hrn⟩, hne⟩ := hi
    simpa [armCheck, distinctCheck] using And.intro hne (And.intro hrd hrn)
  all_goals cases h

/-- The first pair is looked at first. -/
theorem lookup_cons_eq_ite {α β : Type} [BEq α] [LawfulBEq α] [DecidableEq α] (q r : α) (v : β) (ws : List (α × β)) :
    ((r, v) :: ws).lookup q = if q = r then some v else ws.lookup q := by
  by_cases h : q = r
  · simp [h]
  · simp [List.lookup_cons, h, beq_eq_false_iff_ne.mpr h]

/-- The two registers of a pair differ, S31 with its wrap included. -/
theorem succ_ne_self (m : SReg) : m + 1#5 ≠ m := by
  revert m; decide

/-! ### Moves to the coprocessor (45_ls_register_transfer.md R343, R345, R346, R353, R355) -/

section
variable {s t : State}

theorem State.MovedIn.nil (s : State) : s.MovedIn s.advance [] where
  readS _ := rfl
  written _ := rfl
  fpscr := rfl
  system := ⟨rfl, rfl, rfl, rfl, rfl⟩
  core := { SameCore.refl s with env := { (SameCore.refl s).env with } }
  pc := rfl

/-- One more register written before the others, which do not write it again. -/
theorem State.MovedIn.cons {r : BitVec 5} {v : Word} {ws : List (BitVec 5 × Word)} (h : (s.writeS r v).MovedIn t ws)
    (hr : ws.lookup r = none) : s.MovedIn t ((r, v) :: ws) where
  readS q := by
    rw [h.readS, State.readS_writeS, lookup_cons_eq_ite]
    by_cases hq : q = r <;> simp [hq, hr]
  written q := by
    rw [h.written, State.isWritten_writeS, lookup_cons_eq_ite]
    by_cases hq : q = r <;> simp [hq]
  fpscr := h.fpscr
  system := { h.system with }
  core := { h.core with env := { h.core.env with } }
  pc := h.pc

end

/-- Settles O40: the state that each move answers is its registers written one after the other, no two of them the
same. -/
theorem moveToCoprocessor : Obligations.MoveToCoprocessor := by
  intro s i ws h hi hs
  cases i
  case fmsr | fmdlr | fmdhr =>
    obtain rfl := Option.some.inj h
    exact ⟨_, moveIn_ready hi hs _ _, .cons (.nil _) rfl⟩
  case fmdrr c m rd rn =>
    obtain rfl := Option.some.inj h
    exact ⟨_, moveIn_ready hi hs _ _, .cons (.cons (.nil _) rfl) (by simp [lowHalf_ne_highHalf])⟩
  case fmsrr c m rd rn =>
    obtain rfl := Option.some.inj h
    exact ⟨_, moveIn_ready hi hs _ _, .cons (.cons (.nil _) rfl) (by simp [(succ_ne_self m).symm])⟩
  all_goals cases h

/-! ### Moves to the core (45_ls_register_transfer.md R344, R347, R348, R354, R356) -/

section
variable {s t : State}

/-- A move to the core that executes normally moves and advances. -/
theorem moveOut_ready {i : Instr} (hi : i.WellFormed) (hs : s.Ready i.cond) (regs : List (BitVec 5))
    (f : State → State) : moveOut i regs f s = .next (f s).advance := by
  obtain ⟨hc, ha, he⟩ := hs
  rw [moveOut, checked_ready hc ha hi, issueTransfer_normal he]

theorem State.MovedOut.nil (s : State) : s.MovedOut s.advance [] where
  readArm _ hr := State.readArm_of_arm s.advance_arm hr
  sreg := rfl
  written := rfl
  fpscr := rfl
  system := ⟨rfl, rfl, rfl, rfl, rfl⟩
  env := { (SameCore.refl s).env with }
  cpsr := rfl
  mem := rfl
  stored := rfl
  pc := rfl

/-- One more ARM register written before the others, which do not write it again. -/
theorem State.MovedOut.cons {r : ArmReg} {q : BitVec 5} {v : Word} {ws : List (ArmReg × BitVec 5)} (hv : s.readS q = v)
    (h : (s.writeArm r v).MovedOut t ws) (hr15 : r ≠ 15#4) (hr : ws.lookup r = none) : s.MovedOut t ((r, q) :: ws) := by
  have hread : (s.writeArm r v).readS = s.readS := funext (s.readS_writeArm r v)
  have harm : ∀ m, m ≠ 15#4 → t.readArm m = ((((r, q) :: ws).lookup m).map s.readS).getD (s.readArm m) := by
    intro m hm
    rw [h.readArm m hm, State.readArm_writeArm _ _ _ _ hr15, lookup_cons_eq_ite, hread]
    by_cases hmr : m = r <;> simp [hmr, hr, hv]
  rw [State.writeArm_eq_update] at h
  exact { h with readArm := harm, system := { h.system with }, env := { h.env with } }

end

/-- Settles O41: the state that each move answers is its ARM registers written one after the other, none of them R15 and
no two the same, and no ARM register is an S register. -/
theorem moveToCore : Obligations.MoveToCore := by
  intro s i ws h hi hs
  have hregs := movedOut_wellFormed h hi
  cases i
  case fmrs c rd _ _ | fmrdl c rd _ _ | fmrdh c rd _ _ =>
    obtain rfl := Option.some.inj h
    have hrd : rd ≠ 15#4 := by simpa using hregs
    exact ⟨_, moveOut_ready hi hs _ _, .cons rfl (.nil _) hrd rfl⟩
  case fmrrd c rd rn _ | fmrrs c rd rn _ =>
    obtain rfl := Option.some.inj h
    obtain ⟨hne, hrd, hrn⟩ : rd ≠ rn ∧ rd ≠ 15#4 ∧ rn ≠ 15#4 := by simpa using hregs
    exact ⟨_, moveOut_ready hi hs _ _, .cons rfl (.cons (s.readS_writeArm ..) (.nil _) hrn rfl) hrd (by simp [hne])⟩
  all_goals cases h

/-! ### FMSTAT (45_ls_register_transfer.md R359) -/

/-- Settles O45: FMSTAT is admitted, is not the trigger, and its state is the one stated, field by field. -/
theorem fmstatCopiesFlags : Obligations.FmstatCopiesFlags := by
  intro s c hc ha hex
  exact sysAccess_admitted (i := .fmstat c 0#7) hc ha rfl (fun _ => hex) _

/-! ### CPSR and the program counter after any instruction (60_exceptions.md R436, R449, R450) -/

/-- In `u` the core is where it was in `s`, at the same instruction with the same CPSR and vectors. -/
structure AtInstruction (s u : State) : Prop where
  cpsr : u.cpsr = s.cpsr
  pc : u.pc = s.pc
  highVectors : u.highVectors = s.highVectors

/-- From `u` to `t` the instruction is passed, and of CPSR only FMSTAT writes N, Z, C and V. -/
structure Passes (i : Instr) (u t : State) : Prop where
  pc : t.pc = u.pc + 4#32
  cpsr : t.cpsr &&& 0x0FFFFFFF#32 = u.cpsr &&& 0x0FFFFFFF#32
  flags : (∀ c sbz, i ≠ .fmstat c sbz) → t.cpsr = u.cpsr

/-- The next states of an instruction at either level: the entry to the Undefined Instruction exception, or the
instruction passed, each from a state at the instruction. -/
inductive CoreStep (i : Instr) (s : State) : State → Prop where
  /-- Denied, or the trigger of level H. -/
  | trapped {u : State} (hu : AtInstruction s u) : CoreStep i s u.takeUndefined
  /-- Cancelled, captured or executed, at level A also after the support code. -/
  | passed {u t : State} (hu : AtInstruction s u) (ht : Passes i u t) : CoreStep i s t

theorem AtInstruction.refl (s : State) : AtInstruction s s := ⟨rfl, rfl, rfl⟩

theorem AtInstruction.draw (s : State) : AtInstruction s s.draw.2 := ⟨rfl, rfl, rfl⟩

theorem AtInstruction.closeWin (s : State) : AtInstruction s s.closeWin := ⟨rfl, rfl, rfl⟩

theorem AtInstruction.trans {s u v : State} (hu : AtInstruction s u) (hv : AtInstruction u v) : AtInstruction s v :=
  ⟨hv.cpsr.trans hu.cpsr, hv.pc.trans hu.pc, hv.highVectors.trans hu.highVectors⟩

/-- The support code returns to the instruction it was entered from, with the CPSR it saved
(60_exceptions.md R437, R449). -/
theorem AtInstruction.supportCode {s t : State} (h : s.supportCode = .next t) : AtInstruction s t := by
  obtain ⟨w, ⟨hspsr, hr14, hvec⟩, rfl⟩ := State.supportCode_keeps
    (Q := fun u => u.spsrUnd = s.cpsr ∧ u.r14Und = s.pc + 4#32 ∧ u.highVectors = s.highVectors)
    (fun _ c e fl hq => by simpa using hq) s t (fun u hu => by rcases hu with rfl | rfl <;> exact ⟨rfl, rfl, rfl⟩) h
  exact ⟨hspsr, by rw [State.returnFromUndefined_pc, hr14, BitVec.add_sub_cancel], hvec⟩

/-- An instruction that leaves CPSR alone and advances passes. -/
theorem Passes.advance {i : Instr} {u v : State} (hcpsr : v.cpsr = u.cpsr) (hpc : v.pc = u.pc) :
    Passes i u v.advance where
  pc := by rw [State.advance_pc, hpc]
  cpsr := by rw [State.advance_cpsr, hcpsr]
  flags _ := hcpsr

theorem Passes.load {i : Instr} {u t : State} {regs : List (BitVec 5)} {start : Word} {words : Nat} {rn : ArmReg}
    {wb : Option Word} (h : u.load regs start words rn wb = .next t) : Passes i u t := by
  obtain ⟨-, -, rfl⟩ := State.load_next h
  exact .advance (by simp) (by simp)

theorem Passes.store {i : Instr} {u t : State} {regs : List (BitVec 5)} {start : Word} {words : Nat} {rn : ArmReg}
    {wb : Option Word} (h : u.store regs start words rn wb = .next t) : Passes i u t := by
  obtain ⟨-, -, rfl⟩ := State.store_next h
  exact .advance (by simp) (by simp)

theorem Passes.startCdp {i : Instr} {u t : State} {word : Word} {c : Cdp} (h : startCdp word c u = .next t) :
    Passes i u t := by
  obtain ⟨-, rfl⟩ := startCdp_next h
  have hframe := u.runIterations_frame word c
  exact .advance hframe.core.cpsr hframe.pc

theorem Passes.fmstat (c : Cond) (sbz : BitVec 7) (u : State) :
    Passes (.fmstat c sbz) u (u.setCpsr (Cpsr.setNzcv u.cpsr (Fpscr.nzcv u.fpscr))).advance where
  pc := rfl
  cpsr := setNzcv_and_mask (by decide) u.cpsr _
  flags hne := absurd rfl (hne c sbz)

section
variable {i : Instr} {s t : State}

/-- The gate cancels the instruction, denies it, or lets it do what it does. -/
theorem CoreStep.of_checked {a : Access} {go : State → Result} (hgo : go s = .next t → CoreStep i s t)
    (h : checked i a go s = .next t) : CoreStep i s t := by
  rcases checked_next h with ⟨-, rfl⟩ | ⟨-, -, rfl⟩ | ⟨-, -, -, h⟩
  · exact .passed (.refl s) (.advance rfl rfl)
  · exact .trapped (.refl s)
  · exact hgo h

/-- A trigger traps, or the instruction is executed where the support code has returned to. -/
theorem CoreStep.of_trigger {go : State → Result} {u : State} (hgo : ∀ u t, go u = .next t → Passes i u t)
    (hu : AtInstruction s u) (h : trigger go u = .next t) : CoreStep i s t := by
  rcases trigger_next h with ⟨-, rfl⟩ | ⟨-, v, hv, h⟩
  · exact .trapped hu
  · exact .passed (hu.trans (.supportCode hv)) (hgo _ _ h)

theorem CoreStep.of_cdp {c : Cdp} (h : execCdp i c s = .next t) : CoreStep i s t := by
  refine .of_checked (fun h => ?_) h
  rcases issueCdp_next h with ⟨-, hr, rfl⟩ | ⟨-, u, rfl | rfl, htrigger⟩ | ⟨-, -, -, rfl⟩
  · exact .passed (.refl s) (.startCdp (startCdp_legal hr _))
  · exact .of_trigger (fun _ _ => .startCdp) (.refl u) htrigger
  · exact .of_trigger (fun _ _ => .startCdp) (.draw s) htrigger
  · exact .passed (.draw s) (.advance rfl rfl)

theorem CoreStep.of_transfer {writes reads : Word} {go : State → Result}
    (hgo : ∀ u t, go u = .next t → Passes i u t)
    (h : checked i .vfp (issueTransfer writes reads go) s = .next t) : CoreStep i s t := by
  refine .of_checked (fun h => ?_) h
  rcases issueTransfer_next h with ⟨-, hrun⟩ | ⟨-, u, rfl | rfl, htrigger⟩ | ⟨-, -, hahead⟩
  · exact .passed (.refl s) (hgo _ _ hrun)
  · exact .of_trigger hgo (.refl u) htrigger
  · exact .of_trigger hgo (.draw s) htrigger
  · exact .passed (.draw s) (hgo _ _ hahead)

theorem CoreStep.of_move {writes reads : Word} {f : State → State} (hcpsr : ∀ u, (f u).cpsr = u.cpsr)
    (hpc : ∀ u, (f u).pc = u.pc)
    (h : checked i .vfp (issueTransfer writes reads (fun u => .next (f u).advance)) s = .next t) : CoreStep i s t :=
  .of_transfer (fun u _ hu => Host.Outcome.next.inj hu ▸ .advance (hcpsr u) (hpc u)) h

theorem CoreStep.of_sysAccess {reg : SysReg} {f : State → Result} (hf : ∀ u t, f u = .next t → Passes i u t)
    (h : sysAccess i reg f s = .next t) : CoreStep i s t := by
  refine .of_checked (fun h => ?_) h
  rcases issueSerial_next h with ⟨-, -, h⟩ | h
  · exact .of_trigger hf (.closeWin s) h
  · exact .passed (.closeWin s) (hf _ _ h)

/-- Every instruction that answers a next state has passed or has trapped. -/
theorem exec_next_core (h : exec i s = .next t) : CoreStep i s t := by
  cases i
  case fmxr c reg rd sbz =>
    refine .of_sysAccess (fun u t hf => ?_) h
    cases hv : u.writeSys reg (u.readArm rd) with
    | none => simp [hv] at hf
    | some v =>
      simp only [hv, Host.Outcome.next.injEq] at hf
      subst hf
      rcases writeSys_some hv with rfl | ⟨-, rfl⟩ | ⟨-, rfl⟩ | ⟨-, rfl⟩ | ⟨-, rfl⟩ <;> exact .advance rfl rfl
  case fmrx c rd reg sbz =>
    refine .of_sysAccess (fun u t hf => ?_) h
    obtain rfl := Host.Outcome.next.inj hf
    obtain ⟨n, hn⟩ := u.readSys_snd reg
    exact .advance (by simp [hn]) (by simp [hn])
  case fmstat c sbz =>
    exact .of_sysAccess (fun u _ hf => Host.Outcome.next.inj hf ▸ .fmstat c sbz u) h
  case fmsr | fmdlr | fmdhr | fmdrr | fmsrr | fmrs | fmrdl | fmrdh | fmrrd | fmrrs =>
    exact .of_move (by simp) (by simp) h
  case flds | fldd | fldmsIa | fldmsIaWb | fldmsDbWb | fldmdIa | fldmdIaWb | fldmdDbWb | fldmxIa | fldmxIaWb |
      fldmxDbWb => exact .of_transfer (fun _ _ => .load) h
  case fsts | fstd | fstmsIa | fstmsIaWb | fstmsDbWb | fstmdIa | fstmdIaWb | fstmdDbWb | fstmxIa | fstmxIaWb |
      fstmxDbWb => exact .of_transfer (fun _ _ => .store) h
  all_goals exact .of_cdp h

end

/-- Settles O54: an instruction traps or passes, and does so with the CPSR and the program counter it was fetched with,
also where the support code ran before it. -/
theorem onlyTheTrapChangesTheMode : Obligations.OnlyTheTrapChangesTheMode := by
  intro s t i h
  cases exec_next_core h with
  | trapped hu =>
    refine .inl ⟨?_, ?_, hu.cpsr, ?_⟩
    · rw [State.takeUndefined_cpsr, hu.cpsr]
    · rw [State.takeUndefined_pc, State.undefinedVector, hu.highVectors]; rfl
    · rw [State.takeUndefined_r14Und, hu.pc]
  | passed hu ht => exact .inr ⟨hu.pc ▸ ht.pc, hu.cpsr ▸ ht.cpsr, hu.cpsr ▸ ht.flags⟩

end Sys2Proof.Machine

/-! Proofs, exceptions: the entry to the Undefined Instruction exception and the return, transfers in the open window,
and what the support code of level A returns to (60_exceptions.md R421 to R424, R435 to R449). -/

namespace Sys2Proof.Machine

/-! ### Entry and return (60_exceptions.md R428, R436, R437) -/

/-- CPSR on entry, bit by bit above the mode. -/
theorem Cpsr.getLsbD_enterUndefined (w : Word) {i : Nat} (hi : 5 ≤ i) (hi' : i < 32) :
    (Cpsr.enterUndefined w).getLsbD i = if i = 5 then false else if i = 7 then true else w.getLsbD i := by
  have hmode : ¬ i < 5 := by omega
  simp only [Cpsr.enterUndefined, field, BitVec.getLsbD_append, BitVec.getLsbD_extractLsb', hmode, if_false]
  by_cases h5 : i = 5
  · subst h5; rfl
  by_cases h6 : i = 6
  · subst h6; simp
  by_cases h7 : i = 7
  · subst h7; rfl
  have hrest : ¬ i - 5 < 1 ∧ ¬ i - 5 - 1 < 1 ∧ ¬ i - 5 - 1 - 1 < 1 ∧ i - 5 - 1 - 1 - 1 < 24 ∧
      8 + (i - 5 - 1 - 1 - 1) = i := by omega
  obtain ⟨hT, hF, hI, hin, hpos⟩ := hrest
  simp only [h5, h7, hT, hF, hI, hin, hpos, if_false, decide_true, Bool.true_and]

/-- The entry leaves the flags and the reserved bits of CPSR alone. -/
theorem Cpsr.enterUndefined_and_mask (w : Word) :
    Cpsr.enterUndefined w &&& 0xFFFFFF00#32 = w &&& 0xFFFFFF00#32 := by
  apply BitVec.eq_of_getLsbD_eq
  intro i hi
  rw [BitVec.getLsbD_and, BitVec.getLsbD_and]
  by_cases h : i < 8
  · have hmask : (0xFFFFFF00#32).getLsbD i = false := by
      interval_cases i <;> rfl
    rw [hmask, Bool.and_false, Bool.and_false]
  · rw [Cpsr.getLsbD_enterUndefined w (by omega) hi, if_neg (by omega), if_neg (by omega)]

/-- Settles O8: the entry written out, and the return that takes back the 4 it added. -/
theorem undefinedEntryAndReturn : Obligations.UndefinedEntryAndReturn := by
  intro s
  have hbit {i : Nat} (hi : 5 ≤ i) (hi' : i < 32) := Cpsr.getLsbD_enterUndefined s.cpsr hi hi'
  refine ⟨rfl, rfl, Cpsr.mode_enterUndefined _, hbit (by decide) (by decide), hbit (by decide) (by decide),
    hbit (by decide) (by decide), Cpsr.enterUndefined_and_mask _, rfl, rfl, rfl, ?_, rfl⟩
  exact BitVec.add_sub_cancel s.pc 4#32

/-! ### Hazards of the open window (60_exceptions.md R424) -/

@[simp] theorem listMask_nil : listMask [] = 0#32 := rfl

/-- A list of registers has a register in the mask exactly if its own mask meets it. -/
theorem listMask_and_ne_zero (regs : List (BitVec 5)) (mask : Word) :
    (listMask regs &&& mask != 0#32) = true ↔ touches regs mask := by
  simp only [and_ne_zero_iff, listMask, getLsbD_unionMask, List.any_map, List.any_eq_true, Function.comp_apply,
    getLsbD_one_shiftLeft, decide_eq_true_eq, touches]
  constructor
  · rintro ⟨i, ⟨r, hr, rfl⟩, hmask⟩
    exact ⟨r, hr, hmask⟩
  · rintro ⟨r, hr, hmask⟩
    exact ⟨r.toNat, ⟨r, hr, rfl⟩, hmask⟩

/-- A hazard is what the open window tests of the registers a transfer writes and reads. -/
theorem State.hazard_iff (s : State) (i : Instr) (dst src : Word) :
    (listMask (s.transferWrites i) &&& (dst ||| src) != 0#32 || listMask (s.transferReads i) &&& dst != 0#32) = true ↔
      s.Hazard i dst src := by
  rw [Bool.or_eq_true, listMask_and_ne_zero, listMask_and_ne_zero, State.Hazard]

section
variable {s : State} {writes reads dst src : Word} {slot : Bool} {go : State → Result}
  (hw : s.win = .opened dst src slot)
include hw

/-- With a hazard a transfer is the trigger. -/
theorem issueTransfer_hazard (h : (writes &&& (dst ||| src) != 0#32 || reads &&& dst != 0#32) = true) :
    issueTransfer writes reads go s = trigger go s := by
  simp only [issueTransfer, exceptional_of_opened hw, hw, h, Bool.not_true, Bool.false_eq_true, if_false, if_true]

/-- Without a hazard it is a free choice whether a transfer runs ahead of the trap. -/
theorem issueTransfer_free (h : (writes &&& (dst ||| src) != 0#32 || reads &&& dst != 0#32) = false) :
    issueTransfer writes reads go s =
      if Config.freeBool s.draws then go s.draw.2 else trigger go s.draw.2 := by
  simp only [issueTransfer, exceptional_of_opened hw, hw, h, Bool.not_true, Bool.false_eq_true, if_false, State.draw]

end

/-! ### A transfer that runs ahead of the trap (60_exceptions.md R424) -/

section
variable {s t : State} {i : Instr} {f : Transfer} {n : Nat}

/-- What a transfer leaves is said without the count of free values, here and in the next three. -/
theorem State.Loaded.of_draws (h : State.Loaded { s with draws := n } t f) : s.Loaded t f :=
  { h with system := { h.system with }, env := { h.env with } }

theorem State.Stored.of_draws (h : State.Stored { s with draws := n } t f) : s.Stored t f :=
  { h with system := { h.system with }, env := { h.env with } }

theorem State.MovedIn.of_draws {ws : List (BitVec 5 × Word)} (h : State.MovedIn { s with draws := n } t ws) :
    s.MovedIn t ws :=
  { h with system := { h.system with }, core := { h.core with env := { h.core.env with } } }

theorem State.MovedOut.of_draws {ws : List (ArmReg × BitVec 5)} (h : State.MovedOut { s with draws := n } t ws) :
    s.MovedOut t ws :=
  { h with system := { h.system with }, env := { h.env with } }

/-- The result is the complete execution of the transfer `i` on the registers and memory of `s`. -/
structure State.Transferred (s : State) (i : Instr) (r : Result) : Prop where
  load : ∀ f, s.loadOf i = some f → s.Reachable f → ∃ t, r = .next t ∧ s.Loaded t f
  store : ∀ f, s.storeOf i = some f → s.Reachable f → s.NotCode f → ∃ t, r = .next t ∧ s.Stored t f
  moveIn : ∀ ws, s.movedIn i = some ws → ∃ t, r = .next t ∧ s.MovedIn t ws
  moveOut : ∀ ws, movedOut i = some ws → ∃ t, r = .next t ∧ s.MovedOut t ws

/-- The four kinds of transfer, of which an instruction is one at most. -/
inductive State.TransferKind (s : State) (i : Instr) : Prop where
  | load {f : Transfer} (load : s.loadOf i = some f) (store : s.storeOf i = none) (moveIn : s.movedIn i = none)
      (moveOut : movedOut i = none)
  | store {f : Transfer} (load : s.loadOf i = none) (store : s.storeOf i = some f) (moveIn : s.movedIn i = none)
      (moveOut : movedOut i = none)
  | moveIn {ws : List (BitVec 5 × Word)} (load : s.loadOf i = none) (store : s.storeOf i = none)
      (moveIn : s.movedIn i = some ws) (moveOut : movedOut i = none)
  | moveOut {ws : List (ArmReg × BitVec 5)} (load : s.loadOf i = none) (store : s.storeOf i = none)
      (moveIn : s.movedIn i = none) (moveOut : movedOut i = some ws)

theorem State.transferKind (hc : cdpOf i = none) (ha : accessOf i = .vfp) : s.TransferKind i := by
  cases i
  case fmxr | fmrx | fmstat => cases ha
  case flds | fldd | fldmsIa | fldmsIaWb | fldmsDbWb | fldmdIa | fldmdIaWb | fldmdDbWb | fldmxIa | fldmxIaWb |
      fldmxDbWb => exact .load rfl rfl rfl rfl
  case fsts | fstd | fstmsIa | fstmsIaWb | fstmsDbWb | fstmdIa | fstmdIaWb | fstmdDbWb | fstmxIa | fstmxIaWb |
      fstmxDbWb => exact .store rfl rfl rfl rfl
  case fmsr | fmdlr | fmdhr | fmdrr | fmsrr => exact .moveIn rfl rfl rfl rfl
  case fmrs | fmrdl | fmrdh | fmrrd | fmrrs => exact .moveOut rfl rfl rfl rfl
  all_goals cases hc

/-- Every move to the coprocessor is, behind the gate, the writing of the registers that `movedIn` names. -/
theorem exec_of_movedIn {ws : List (BitVec 5 × Word)} (h : s.movedIn i = some ws) :
    ∃ go, exec i s = checked i .vfp (issueTransfer (listMask (ws.map (·.1))) 0#32 go) s ∧
      ∀ n, ∃ t, go { s with draws := n } = .next t ∧ s.MovedIn t ws := by
  cases i
  case fmsr | fmdlr | fmdhr =>
    obtain rfl := Option.some.inj h
    exact ⟨_, rfl, fun n => ⟨_, rfl, .of_draws (.cons (.nil _) rfl)⟩⟩
  case fmdrr =>
    obtain rfl := Option.some.inj h
    exact ⟨_, rfl, fun n => ⟨_, rfl, .of_draws (.cons (.cons (.nil _) rfl) (by simp [lowHalf_ne_highHalf]))⟩⟩
  case fmsrr c m rd rn =>
    obtain rfl := Option.some.inj h
    exact ⟨_, rfl, fun n => ⟨_, rfl, .of_draws (.cons (.cons (.nil _) rfl) (by simp [(succ_ne_self m).symm]))⟩⟩
  all_goals cases h

/-- Every move to the core is, behind the gate, the writing of the ARM registers that `movedOut` names. -/
theorem exec_of_movedOut {ws : List (ArmReg × BitVec 5)} (h : movedOut i = some ws) (hi : i.WellFormed) :
    ∃ go, exec i s = checked i .vfp (issueTransfer 0#32 (listMask (ws.map (·.2))) go) s ∧
      ∀ n, ∃ t, go { s with draws := n } = .next t ∧ s.MovedOut t ws := by
  have hregs := movedOut_wellFormed h hi
  cases i
  case fmrs c rd _ _ | fmrdl c rd _ _ | fmrdh c rd _ _ =>
    obtain rfl := Option.some.inj h
    have hrd : rd ≠ 15#4 := by simpa using hregs
    exact ⟨_, rfl, fun n => ⟨_, rfl, .of_draws (.cons rfl (.nil _) hrd rfl)⟩⟩
  case fmrrd c rd rn _ | fmrrs c rd rn _ =>
    obtain rfl := Option.some.inj h
    obtain ⟨hne, hrd, hrn⟩ : rd ≠ rn ∧ rd ≠ 15#4 ∧ rn ≠ 15#4 := by simpa using hregs
    exact ⟨_, rfl, fun n => ⟨_, rfl,
      .of_draws (.cons rfl (.cons (State.readS_writeArm ..) (.nil _) hrn rfl) hrd (by simp [hne]))⟩⟩
  all_goals cases h

/-- A transfer meets the window with the registers it writes and reads, and is complete wherever it runs. -/
theorem exec_transferred (hc : cdpOf i = none) (ha : accessOf i = .vfp) (hi : i.WellFormed) :
    ∃ go, exec i s =
        checked i .vfp (issueTransfer (listMask (s.transferWrites i)) (listMask (s.transferReads i)) go) s ∧
      ∀ n, s.Transferred i (go { s with draws := n }) := by
  cases s.transferKind hc ha with
  | load hl hs hin hout =>
    obtain ⟨go, hexec, hgo⟩ := exec_of_loadOf hl
    refine ⟨go, by simpa [State.transferWrites, State.transferReads, hl, hs, hout] using hexec, fun n => ?_⟩
    refine ⟨fun f hf hreach => ?_, by simp [hs], by simp [hin], by simp [hout]⟩
    obtain rfl := Option.some.inj (hl.symm.trans hf)
    have hload := State.load_eq_next_iff (s := { s with draws := n }).mpr ⟨hreach, rfl⟩
    exact ⟨_, (hgo n).trans hload, .of_draws (.of_load (State.loadOf_nodup hf hi) hload)⟩
  | store hl hs hin hout =>
    obtain ⟨go, hexec, hgo⟩ := exec_of_storeOf hs
    refine ⟨go, by simpa [State.transferWrites, State.transferReads, hl, hs, hin] using hexec, fun n => ?_⟩
    refine ⟨by simp [hl], fun f hf hreach hcode => ?_, by simp [hin], by simp [hout]⟩
    obtain rfl := Option.some.inj (hs.symm.trans hf)
    have hstore := State.store_eq_next_iff (s := { s with draws := n }).mpr ⟨hreach, hcode, rfl⟩
    exact ⟨_, (hgo n).trans hstore, .of_draws (.of_store hstore)⟩
  | moveIn hl hs hin hout =>
    obtain ⟨go, hexec, hgo⟩ := exec_of_movedIn hin
    refine ⟨go, by simpa [State.transferWrites, State.transferReads, hl, hs, hin, hout] using hexec, fun n => ?_⟩
    refine ⟨by simp [hl], by simp [hs], fun ws hws => ?_, by simp [hout]⟩
    obtain rfl := Option.some.inj (hin.symm.trans hws)
    exact hgo n
  | moveOut hl hs hin hout =>
    obtain ⟨go, hexec, hgo⟩ := exec_of_movedOut (s := s) hout hi
    refine ⟨go, by simpa [State.transferWrites, State.transferReads, hl, hs, hin, hout] using hexec, fun n => ?_⟩
    refine ⟨by simp [hl], by simp [hs], by simp [hin], fun ws hws => ?_⟩
    obtain rfl := Option.some.inj (hout.symm.trans hws)
    exact hgo n

end

/-- Settles O32: a hazard of the statement is one that the window tests for, and both values of the free choice. -/
theorem transferInTheOpenWindow : Obligations.TransferInTheOpenWindow := by
  intro s i dst src slot hl ⟨hcond, hacc, hi⟩ hvfp hc hw
  obtain ⟨go, hexec, hgo⟩ := exec_transferred (s := s) hc hvfp hi
  rw [checked_ready hcond (hvfp ▸ hacc) hi] at hexec
  have hfree (h : ¬ s.Hazard i dst src) := issueTransfer_free (go := go) hw
    (Bool.eq_false_iff.mpr fun hb => h ((s.hazard_iff i dst src).mp hb))
  refine ⟨fun h => ?_, fun h hdraw => ?_, fun h hdraw => ?_⟩
  · rw [hexec, issueTransfer_hazard hw ((s.hazard_iff i dst src).mpr h), trigger_hardware hl]
  · rw [hexec, hfree h, hdraw]
    exact trigger_hardware (s := s.draw.2) hl go
  · have hrun : s.Transferred i (exec i s) := by
      rw [hexec, hfree h, hdraw]
      exact hgo (s.draws + 1)
    exact ⟨hrun.load, hrun.store, hrun.moveIn, hrun.moveOut⟩

/-! ### The support code returns (60_exceptions.md R437, R442, R449) -/

section
variable {s t : State}

/-- What stands from the entry to the support code to its return, but for the registers, the free values and FPSCR. -/
structure SupportFrame (s u : State) : Prop where
  arm : u.arm = s.arm
  win : u.win = .closed
  fpexc : u.fpexc = Fpexc.clearState s.fpexc
  env : SameEnv { s with r14Und := u.r14Und, spsrUnd := u.spsrUnd } u

theorem SupportFrame.complete {u : State} (h : SupportFrame s u) (c : Cdp) (e : Effect) (fl : Cumulative) :
    SupportFrame s (u.complete c e fl) where
  arm := by simpa using h.arm
  win := by simpa using h.win
  fpexc := by simpa using h.fpexc
  env := by
    obtain ⟨-, -, hbig, hvec, hcp, habort, hfetch, hlevel⟩ := h.env
    constructor <;> simp [*]

/-- The return writes CPSR and the program counter only, so the frame holds after it too. -/
theorem SupportFrame.of_supportCode (h : s.supportCode = .next t) : SupportFrame s t := by
  obtain ⟨w, ⟨harm, hwin, hfpexc, henv⟩, rfl⟩ := State.supportCode_keeps (Q := SupportFrame s)
    (fun _ c e fl hq => hq.complete c e fl) s t
    (fun u hu => by
      rcases hu with rfl | rfl <;> exact ⟨rfl, rfl, rfl, by constructor <;> rfl⟩) h
  exact ⟨harm, hwin, hfpexc, { henv with }⟩

end

theorem Fpexc.clearState_and_mask (w : Word) : Fpexc.clearState w &&& 0x9000008D#32 = 0#32 := by
  rw [Fpexc.clearState, BitVec.and_assoc]
  exact BitVec.and_zero

/-- Settles O56: the iterations write VFP registers and FPSCR only, and of the entry the return leaves the cleared FPEXC,
the closed window, R14_und and SPSR_und. -/
theorem supportCodeReturnsToTrigger : Obligations.SupportCodeReturnsToTrigger := by
  intro s t h
  obtain ⟨hcpsr, hpc, -⟩ := AtInstruction.supportCode h
  obtain ⟨harm, hwin, hfpexc, henv⟩ := SupportFrame.of_supportCode h
  obtain ⟨hmem, -⟩ := (MemoryKept.refl s).supportCode h
  obtain ⟨hcontrol, hcumulative⟩ := supportCode_flagsKept (.refl s.fpscr) h
  exact ⟨hpc, hcpsr, harm, hmem, hwin, hfpexc ▸ Fpexc.clearState_and_mask s.fpexc, supportCode_en h, hcontrol,
    hcumulative, henv⟩

/-! ### The trigger after the support code (60_exceptions.md R435, R446, R449) -/

section
variable {s t : State} {i : Instr}

/-- In `t` an instruction is admitted if it is in `s`, and executes normally. -/
structure Resumed (s t : State) : Prop where
  cpsr : t.cpsr = s.cpsr
  en : Fpexc.en t.fpexc = Fpexc.en s.fpexc
  cpAccess : t.cpAccess = s.cpAccess
  bigEndian : t.bigEndian = s.bigEndian
  ex : Fpexc.ex t.fpexc = false
  win : t.win = .closed

theorem Resumed.of_supportCode (h : s.supportCode = .next t) : Resumed s t := by
  obtain ⟨hcpsr, -, -⟩ := AtInstruction.supportCode h
  obtain ⟨-, hwin, hfpexc, henv⟩ := SupportFrame.of_supportCode h
  exact ⟨hcpsr, supportCode_en h, henv.cpAccess, henv.bigEndian, hfpexc ▸ Fpexc.clearState_ex s.fpexc, hwin⟩

theorem Resumed.admits (h : Resumed s t) (ha : s.Admits i) : t.Admits i := by
  obtain ⟨hcond, hacc, hi⟩ := ha
  refine ⟨h.cpsr.symm ▸ hcond, ?_, hi⟩
  rwa [State.accessible, State.cpAllows, h.cpAccess, h.cpsr, h.en]

theorem Resumed.exceptional (h : Resumed s t) : t.exceptional = false := by
  simp [State.exceptional, h.ex, h.win]

theorem Resumed.closeWin (h : Resumed s t) : t.closeWin = t := by
  rw [State.closeWin, State.setWin, ← h.win]

/-- A transfer is the same one in every state of one endianness (20_memory.md R93). -/
theorem exec_transfer_uniform (hc : cdpOf i = none) (ha : accessOf i = .vfp) (b : Bool) :
    ∃ writes reads go, ∀ u, u.bigEndian = b → exec i u = checked i .vfp (issueTransfer writes reads go) u := by
  cases i
  case fmxr | fmrx | fmstat => cases ha
  case flds | fldmsIa | fldmsIaWb | fldmsDbWb | fsts | fstmsIa | fstmsIaWb | fstmsDbWb | fmsr | fmrs | fmdlr | fmrdl |
      fmdhr | fmrdh | fmdrr | fmrrd | fmsrr | fmrrs => exact ⟨_, _, _, fun _ _ => rfl⟩
  case fldd | fldmdIa | fldmdIaWb | fldmdDbWb | fldmxIa | fldmxIaWb | fldmxDbWb | fstd | fstmdIa | fstmdIaWb |
      fstmdDbWb | fstmxIa | fstmxIaWb | fstmxDbWb =>
    exact ⟨_, _, _, fun u hu => by
      simp only [exec, execFldd, execFldmdIa, execFldmdIaWb, execFldmdDbWb, execFldmxIa, execFldmxIaWb, execFldmxDbWb,
        execFstd, execFstmdIa, execFstmdIaWb, execFstmdDbWb, execFstmxIa, execFstmxIaWb, execFstmxDbWb, hu]
      rfl⟩
  all_goals cases hc

theorem exec_sysAccess_uniform {r : SysReg} (ha : accessOf i = .sys r) : ∃ f, ∀ u, exec i u = sysAccess i r f u := by
  cases i
  case fmxr | fmrx | fmstat => cases ha; exact ⟨_, fun _ => rfl⟩
  all_goals cases ha

/-- A CDP instruction that the support code has returned to is checked and runs. -/
theorem exec_cdp_resumed {c : Cdp} (h : Resumed s t) (hc : cdpOf i = some c) (ha : s.Admits i) :
    exec i t = startCdp (encode i) c t := by
  rw [exec_admitted hc (h.admits ha), issueCdp_running h.exceptional]

/-- A trigger instruction with what it does: `go`, at level A after the support code; it does the same when it is
executed in a state that the support code has returned to. -/
theorem exec_trigger_resumed (hex : Fpexc.ex s.fpexc = true) (ha : s.Admits i)
    (ho : ∀ c, cdpOf i = some c → c.overlapping s.fpscr = false)
    (hi : (accessOf i = .vfp ∧ s.win = .closed) ∨ accessOf i = .sys .fpscr) :
    ∃ go u, (u = s ∨ u = s.closeWin) ∧ exec i s = trigger go u ∧ ∀ t, Resumed s t → exec i t = go t := by
  have ⟨hcond, hacc, hwf⟩ := ha
  rcases hi with ⟨hvfp, hw⟩ | hsys
  · cases hc : cdpOf i with
    | some c =>
      refine ⟨startCdp (encode i) c, s, .inl rfl, ?_, fun t ht => exec_cdp_resumed ht hc ha⟩
      rw [exec_admitted hc ha, issueCdp_closedTrigger (noClosedTrigger_false hex hw) (ho c hc)]
    | none =>
      obtain ⟨writes, reads, go, hexec⟩ := exec_transfer_uniform hc hvfp s.bigEndian
      refine ⟨go, s, .inl rfl, ?_, fun t ht => ?_⟩
      · rw [hexec s rfl, checked_ready hcond (hvfp ▸ hacc) hwf, issueTransfer_closed hex hw]
      · obtain ⟨hcond', hacc', -⟩ := ht.admits ha
        rw [hexec t ht.bigEndian, checked_ready hcond' (hvfp ▸ hacc') hwf, issueTransfer_normal ht.exceptional]
  · obtain ⟨f, hexec⟩ := exec_sysAccess_uniform hsys
    refine ⟨f, s.closeWin, .inr rfl, ?_, fun t ht => ?_⟩
    · rw [hexec, sysAccess, checked_ready hcond (hsys ▸ hacc) hwf]
      exact issueSerial_trigger hex f
    · obtain ⟨hcond', hacc', -⟩ := ht.admits ha
      rw [hexec, sysAccess, checked_ready hcond' (hsys ▸ hacc') hwf]
      simp [issueSerial, ht.ex, ht.closeWin]

theorem State.takeUndefined_closeWin (s : State) : s.closeWin.takeUndefined = s.takeUndefined := rfl

theorem State.readSys_closeWin_snd (s : State) : (s.closeWin.readSys .fpinst2).2 = (s.readSys .fpinst2).2.closeWin := by
  cases h : s.fpinst2Defined
  · simp only [State.readSys, State.closeWin_fpinst2Defined, h, Bool.false_eq_true, if_false]; rfl
  · simp only [State.readSys, State.closeWin_fpinst2Defined, h, if_true]

/-- The entry closes the window, so that the support code does not see whether it was open (60_exceptions.md R428). -/
theorem State.supportCode_closeWin (s : State) : s.closeWin.supportCode = s.supportCode := by
  simp only [State.supportCode, State.readSys_closeWin, State.readSys_closeWin_snd, State.closeWin_fpexc,
    State.closeWin_fpinst, apply_ite State.takeUndefined, State.takeUndefined_closeWin]

end

/-- Settles O57: at level A the trigger is the support code and then what the instruction does, which is what it does in
the state returned to. -/
theorem triggerExecutesAfterSupportCode : Obligations.TriggerExecutesAfterSupportCode := by
  intro s i hl ha hex ho hi
  obtain ⟨go, u, hu, hexec, hresumed⟩ := exec_trigger_resumed hex ha ho hi
  have htrigger : exec i s = thenDo s.supportCode go := by
    rw [hexec]
    rcases hu with rfl | rfl
    · simp [trigger, hl]
    · simp [trigger, hl, State.supportCode_closeWin]
  refine ⟨fun t ht => ?_, fun e he => ?_, fun e he => ?_⟩
  · rw [htrigger, ht, hresumed t (.of_supportCode ht)]; rfl
  · rw [htrigger, he]; rfl
  · rw [htrigger, he]; rfl

end Sys2Proof.Machine
